-- ==== Sys2Proof/Word.lean ====
section
/-! DEFINITION. The word types of the block: a byte of the input stream, a 32-bit register (spec 00 R10), a 16-bit PCM
entry (spec 10 R95). -/

namespace Sys2Proof

/-- One byte of the input stream. -/
abbrev Byte := BitVec 8

/-- One host-visible register, 32 bits (00_scope.md R10). -/
abbrev Word := BitVec 32

/-- One entry of the PCM memory, a 16-bit two's-complement sample (10_state.md R95). -/
abbrev Pcm := BitVec 16

end Sys2Proof
end

