-- ==== Sys2Proof/Syntax.lean ====
section
/-! DEFINITION. The eight commands (spec 30 R201, opcode_table.json), the fields of a command word (30 R200), and the
data a frame of the bitstream carries (30 R210 to R221). Pure data; no meaning stands here. -/

namespace Sys2Proof

/-- One command of 30_encoding.md R201, a constructor for each row of opcode_table.json.
REFILL_DONE's one operand, READ_ERROR (R202), makes two rows of the table and two constructors. -/
inductive Instr where
  | nop
  | reset
  | openFile
  | pull
  | close
  | refillDone
  | refillDoneErr
  | irqAck
deriving DecidableEq, Repr

/-- The fields of a command word (30_encoding.md R200). -/
structure CommandFields where
  op  : BitVec 8
  f0  : BitVec 1
  mbz : BitVec 23
deriving DecidableEq, Repr

/-- Why a word written to CMD is illegal (30_encoding.md R203). -/
inductive IllegalWord where
  /-- OP is 0x07 to 0xFF. -/
  | reservedOpcode
  /-- Bits [31:9] are not all zero. -/
  | nonzeroMbz
  /-- Bit 8 is 1 and OP is not 0x05. -/
  | strayFlag
deriving DecidableEq, Repr

/-- The fields of a frame header (30_encoding.md R210). -/
structure Header where
  sync              : BitVec 12
  id                : BitVec 1
  layer             : BitVec 2
  protection        : BitVec 1
  bitrateIndex      : BitVec 4
  samplingFrequency : BitVec 2
  padding           : BitVec 1
  privateBit        : BitVec 1
  mode              : BitVec 2
  modeExtension     : BitVec 2
  copyright         : BitVec 1
  original          : BitVec 1
  emphasis          : BitVec 2
deriving DecidableEq, Repr, Inhabited

/-- The side information of one granule and channel (30_encoding.md R219). A field that a layout does not carry is 0
(42_side_info_main_data.md R400). -/
structure GranuleInfo where
  part23Length     : Nat
  bigValues        : Nat
  globalGain       : Nat
  scalefacCompress : Nat
  windowSwitching  : Bool
  blockType        : Nat
  mixedBlock       : Bool
  tableSelect0     : Nat
  tableSelect1     : Nat
  tableSelect2     : Nat
  subblockGain0    : Nat
  subblockGain1    : Nat
  subblockGain2    : Nat
  region0Count     : Nat
  region1Count     : Nat
  preflag          : Bool
  scalefacScale    : Bool
  count1Table      : Bool
deriving DecidableEq, Repr, Inhabited

/-- The side information of a frame (30_encoding.md R217, R218). `scfsi0` and `scfsi1` hold the four bits
`scfsi[ch][0..3]`, the first bit read in the most significant place. `g0c1` and `g1c1` are all zero when `nch = 1`. -/
structure SideInfo where
  mainDataBegin : Nat
  scfsi0 : Nat
  scfsi1 : Nat
  g0c0 : GranuleInfo
  g0c1 : GranuleInfo
  g1c0 : GranuleInfo
  g1c1 : GranuleInfo
deriving DecidableEq, Repr, Inhabited

/-- The scalefactors of one granule and channel (10_state.md R97): `long[s]` for s = 0..21, and `short[3*s + w]` for
s = 0..12 and window w = 0..2. -/
structure Scalefac where
  long  : Vector Nat 22
  short : Vector Nat 39
deriving DecidableEq, Repr, Inhabited

/-- The 576 quantized values `is[gr][ch][0..575]` of one granule and channel (10_state.md R97). -/
abbrev Lines := Vector Int 576

/-- What is decoded of one granule and channel. -/
structure Part where
  info  : GranuleInfo
  scf   : Scalefac
  lines : Lines
deriving DecidableEq, Repr, Inhabited

/-- One channel's part of a frame: its scfsi bits and its two granules. -/
structure ChanIn where
  scfsi : Nat
  g0 : Part
  g1 : Part
deriving DecidableEq, Repr, Inhabited

/-- `frame_in` of 45_filterbank.md R590: header, side information, scalefactors and quantized values of a frame. -/
structure FrameIn where
  header        : Header
  mainDataBegin : Nat
  ch0 : ChanIn
  ch1 : ChanIn
deriving DecidableEq, Repr, Inhabited

/-- `SYN[c]` of 10_state.md R94: the IMDCT overlap `OVL[c][sb][i]` and the polyphase history `V[c][0..1023]`. The number
domain of FX is taken to be the integers (assumption log 7). -/
structure SynChan where
  ovl : Vector (Vector Int 18) 32
  v   : Vector Int 1024
deriving DecidableEq, Repr, Inhabited

/-- What FX gives for one channel (45_filterbank.md R590), `Y` being the type of its histories: the samples
`s[c][0..1151]`, each a SYNTH_WIDTH-bit (32) two's-complement integer, and `SYN_out[c]`. -/
structure FxOut (Y : Type) where
  samples : Vector Word 1152
  syn     : Y
deriving DecidableEq, Repr, Inhabited

/-- One codeword of a Huffman code set and the pair it stands for (43_huffman.md R452). -/
structure Code where
  bits : List Bool
  x : Nat
  y : Nat
deriving DecidableEq, Repr, Inhabited

/-- The order of two PCM samples in a 32-bit bus word (20_memory.md R154). -/
inductive Endian where
  | little
  | big
deriving DecidableEq, Repr

end Sys2Proof
end

