-- ==== Sys2Proof/WellFormed.lean ====
section
/-! DEFINITION. When the fields of a command word are legal (spec 30 R203): three checks, each with a name. -/

namespace Sys2Proof

/-- OP is one of 0x00 to 0x06 (30_encoding.md R201, R203). -/
def CommandFields.opDefined (f : CommandFields) : Bool := f.op ≤ 0x06#8

/-- Bits [31:9] are all zero (30_encoding.md R200, R203). -/
def CommandFields.mbzZero (f : CommandFields) : Bool := f.mbz = 0#23

/-- Bit 8 is set only with OP 0x05 (30_encoding.md R200, R203). -/
def CommandFields.flagAllowed (f : CommandFields) : Bool := f.f0 = 0#1 || f.op = 0x05#8

/-- A legal command word's fields (30_encoding.md R203). -/
def CommandFields.wellFormed (f : CommandFields) : Bool := f.opDefined && f.mbzZero && f.flagAllowed

/-- The fields that a command's row of opcode_table.json gives (30_encoding.md R202). -/
def Instr.fields : Instr → CommandFields
  | .nop           => ⟨0x00#8, 0#1, 0#23⟩
  | .reset         => ⟨0x01#8, 0#1, 0#23⟩
  | .openFile      => ⟨0x02#8, 0#1, 0#23⟩
  | .pull          => ⟨0x03#8, 0#1, 0#23⟩
  | .close         => ⟨0x04#8, 0#1, 0#23⟩
  | .refillDone    => ⟨0x05#8, 0#1, 0#23⟩
  | .refillDoneErr => ⟨0x05#8, 1#1, 0#23⟩
  | .irqAck        => ⟨0x06#8, 0#1, 0#23⟩

/-- A command is well-formed when the fields it is assembled from are legal. -/
def Instr.wellFormed (i : Instr) : Bool := i.fields.wellFormed

end Sys2Proof
end

