-- ==== Sys2Proof/Decode.lean ====
section
/-! DEFINITION. The decoder of command words, total on every word and rejecting by name, and the encoder beside it
(spec 30 R200 to R203). -/

namespace Sys2Proof

/-- The fields of a word (30_encoding.md R200). -/
def commandFields (w : Word) : CommandFields :=
  ⟨w.extractLsb' 0 8, w.extractLsb' 8 1, w.extractLsb' 9 23⟩

/-- The word made of fields (30_encoding.md R200): MBZ above F0 above OP. -/
def commandWord (f : CommandFields) : Word := f.mbz ++ f.f0 ++ f.op

/-- The opcode map of 30_encoding.md R201, with REFILL_DONE's flag (R202). -/
def instrOfFields (f : CommandFields) : Option Instr :=
  if f.op = 0x00#8 then some .nop
  else if f.op = 0x01#8 then some .reset
  else if f.op = 0x02#8 then some .openFile
  else if f.op = 0x03#8 then some .pull
  else if f.op = 0x04#8 then some .close
  else if f.op = 0x05#8 then (if f.f0 = 1#1 then some .refillDoneErr else some .refillDone)
  else if f.op = 0x06#8 then some .irqAck
  else none

/-- The command of a word written to CMD, or why the word is illegal (30_encoding.md R203). All the reasons have the
same one effect. -/
def decode (w : Word) : Except IllegalWord Instr :=
  let f := commandFields w
  if f.mbzZero = false then .error .nonzeroMbz
  else if f.flagAllowed = false then .error .strayFlag
  else match instrOfFields f with
    | some i => .ok i
    | none => .error .reservedOpcode

/-- The word of a command (30_encoding.md R202). -/
def encode (i : Instr) : Word := commandWord i.fields

/-- What the decoder reads from an instruction whose bits are `w`, of `nbits` bits. A command is one 32-bit word, so a
number of more than 32 bits is none. -/
def decodeTableWord (nbits w : Nat) : Option Instr :=
  let bits := w % 2 ^ nbits
  if bits < 2 ^ 32 then
    match decode (BitVec.ofNat 32 bits) with
    | .ok i => some i
    | .error _ => none
  else none

end Sys2Proof
end

