-- ==== Sys2Proof/Config.lean ====
section
/-! DEFINITION. What an implementation fixes (spec 00 R8, 92 section 2) and the free values of the model. A constant with
no body stands for every value it could have: no proof can see one. -/

namespace Sys2Proof

/-- `RES_KEEP`, decided 511 (00_scope.md R8). -/
def Config.resKeep : Nat := 511

/-- `FRAC_BITS`, decided 28 (00_scope.md R8; 45_filterbank.md R590). -/
def Config.fracBits : Nat := 28

/-- `HOST_ENDIAN`, decided little (00_scope.md R8; 20_memory.md R154). -/
def Config.hostEndian : Endian := .little

/-- `GUARD_BYTES`, an OPEN parameter of at least 0 (00_scope.md R8; 92_eei_decisions.md D5; assumption log 25): the size of
the guard region after the input buffer. Nothing constrains it, so a statement is one for every size. -/
opaque Config.guardBytes : Nat

/-- FREE VALUE (assumption log 1): what entry `k` of PCM_MEM reads as where the spec fixes no value (20_memory.md R172;
70_reset_and_hazards.md R761). The first argument is the model's `epoch`: the value may change with every engine step
and host write, and two reads with neither between them agree (20_memory.md R160). DESIGN CHOICE (assumption log 1): it has no other
argument, so an entry reads the same in two states of equal `epoch`, whatever else they differ in. -/
opaque Config.freePcm : Nat → Nat → Pcm

/-- FREE VALUE (assumption log 8): whether an access of a size that no rule of 20_memory.md names gets a bus error. The
arguments are the offset and the size, so the answer is the same in every state. -/
opaque Config.freeBusError : Nat → Nat → Bool

/-- FREE VALUE (assumption log 8): what a read of such a size in the PCM region returns when it is no bus error. The
arguments are `epoch`, the offset and the size, so the answer is the same in two states of equal `epoch`. -/
opaque Config.freeBusData : Nat → Nat → Nat → Word

/-- `HUFF_TABLES` (43_huffman.md R452; assumption log 10): the code sets H2, H3, H5 to H13, H15, H16 and H24, by number.
`Machine.codeSet` holds them to R452's constraints. -/
opaque Config.huffTables : Nat → List Code

/-- `FX` for one channel (45_filterbank.md R590; assumption log 7): the channel's number, the frame's header and
main_data_begin, the channel's part of the frame and its history. `Machine.fxFrame` holds it to F1 to F5 and gives it no
field that the block ignores. -/
opaque Config.fxChannel : Nat → Header → Nat → ChanIn → SynChan → FxOut SynChan

/-- `FX` for a joint-stereo frame, where the channels are transformed together (45_filterbank.md R590; assumption
log 7): the frame and both histories. -/
opaque Config.fxJoint : FrameIn → SynChan → SynChan → FxOut SynChan × FxOut SynChan

end Sys2Proof
end

