-- ==== Sys2Proof/Machine/State.lean ====
section
/-! DEFINITION. The state of the block and of the host's accesses still to come, and its value after reset (spec 10). -/

namespace Sys2Proof.Machine

/-- ENGINE (10_state.md R63, R93). -/
inductive Engine where
  | idle
  | busy
  | needData
deriving DecidableEq, Repr

/-- SESSION (10_state.md R63, R93). -/
inductive Session where
  | uninitialized
  | streaming
  | exhausted
deriving DecidableEq, Repr

/-- PENDING (10_state.md R63, R93): the command in progress. -/
inductive Pending where
  | none
  | opening
  | pulling
deriving DecidableEq, Repr

/-- ERR (60_exceptions.md R704). Codes 7 to 15 are never written. -/
inductive HostErr where
  | none
  | illegalCmd
  | busy
  | noSession
  | fileError
  | protocol
  | overflow
deriving DecidableEq, Repr

/-- DIAG_CAUSE (60_exceptions.md R702). Codes 10 to 15 are never written. -/
inductive Cause where
  | none
  | syncSkip
  | reservoirUnderflow
  | part23Overrun
  | badBlockType
  | bigValuesRange
  | badTable
  | scalefacOverrun
  | huffmanOverrun
  | badHuffcode
deriving DecidableEq, Repr

/-- Why a Fatal outcome was raised (60_exceptions.md R706). No register shows it. -/
inductive FatalCause where
  | freeFormat
  | formatChange
deriving DecidableEq, Repr

/-- The format lock's pair `(fs, nch)` (10_state.md R92). -/
structure Lock where
  fs  : Nat
  nch : Nat
deriving DecidableEq, Repr

/-- The registers of the map of 10_state.md R55. -/
inductive Reg where
  | id
  | ctrl
  | cmd
  | status
  | refillMax
  | refillCount
  | inData
  | header
  | sampleRate
  | bitrate
  | srcChannels
  | pcmLength
  | pcmChannels
  | frames
  | resyncs
  | dropped
  | diagCause
  | bufLevel
  | dbgSel
  | dbgData
deriving DecidableEq, Repr

/-- What an access of a size at an offset of the window reaches (20_memory.md R152 to R158). -/
inductive Target where
  /-- An aligned 4-byte access of a register (R152). -/
  | reg (r : Reg)
  /-- An aligned 2-byte access of PCM entry `k` (R153). -/
  | pcm2 (k : Nat)
  /-- An aligned 4-byte access of PCM entries `2k` and `2k+1` (R153). -/
  | pcm4 (k : Nat)
  /-- An offset with nothing behind it (R157). -/
  | unmapped
  /-- A bus error (R158). -/
  | busError
  /-- A size that no rule names, in the PCM region (assumption log 8). -/
  | otherPcm
  /-- A size that no rule names, in the gap or the tail (assumption log 8). -/
  | otherGap
  /-- An offset that is not the block's (R151). -/
  | outside
deriving DecidableEq, Repr

/-- What happens next at the block's boundary (10_state.md R51; 20_memory.md R170; 70_reset_and_hazards.md R750). -/
inductive Event where
  /-- `MemRead(off, len)` by the host (00_scope.md R14). -/
  | read (off len : Nat)
  /-- `MemWrite(off, len, v)` by the host (00_scope.md R14). -/
  | write (off len : Nat) (v : Word)
  /-- The engine's turn: it takes a step if one is enabled. -/
  | engine
  /-- The platform's reset input. -/
  | reset
deriving DecidableEq, Repr

/-- Bytes by address, in canonical form: addresses strictly rising, no entry with the value 0 that an unlisted address
reads as (assumption log 2). -/
abbrev Mem := List Host.Cell

/-- `IS_SNAP[gr][ch][line]` (10_state.md R96). -/
abbrev Snapshot := Vector (Vector Lines 2) 2

/-- The block's state (10_state.md), with the implementation parameter IBUF_CAP and the host's accesses. -/
structure State where
  -- host-visible registers (10_state.md R60 to R79)
  ctrl        : Word
  engine      : Engine
  session     : Session
  pcmValid    : Bool
  eos         : Bool
  done        : Bool
  err         : HostErr
  pending     : Pending
  refillMax   : Nat
  refillCount : Nat
  header      : Word
  sampleRate  : Word
  bitrate     : Word
  srcChannels : Word
  pcmLength   : Word
  pcmChannels : Word
  frames      : Word
  resyncs     : Word
  dropped     : Word
  diagCause   : Cause
  dbgSel      : Word
  -- internal state (10_state.md R90 to R96)
  ibuf        : Mem
  avail       : Nat
  pos         : Nat
  eof         : Bool
  refillErr   : Bool
  res         : List Byte
  lock        : Option Lock
  syn0        : SynChan
  syn1        : SynChan
  pcmMem      : Vector Pcm 2304
  isSnap      : Snapshot
  -- the parameter IBUF_CAP (00_scope.md R8; assumption log 4)
  ibufCap     : Nat
  -- the model's own: what comes next (log 5), the answer to the last host access (log 6), the argument of the free
  -- values (log 1)
  inputs      : List Event
  busData     : Word
  busError    : Bool
  epoch       : Nat
deriving DecidableEq, Repr

/-- Why the model stops. -/
inductive Fault where
  /-- Raised by a host access at an offset outside 0x0000 to 0x3FFF. The access does not reach the block (20_memory.md
  R151), and the spec says nothing of it. Safe: the model stops where the hardware goes on. -/
  | outsideWindow
deriving DecidableEq, Repr

/-- Why the model refuses. -/
inductive Refusal where
  /-- Raised by `exec` for a command with no meaning yet; no command is in that case. Safe. -/
  | notModelled (mnemonic : String)
deriving DecidableEq, Repr

/-- `SYN[c]` all zero (10_state.md R120). -/
def zeroSyn : SynChan := ⟨Vector.replicate 32 (Vector.replicate 18 0), Vector.replicate 1024 0⟩

/-- `IS_SNAP` all zero (10_state.md R120). -/
def zeroSnap : Snapshot := Vector.replicate 2 (Vector.replicate 2 (Vector.replicate 576 0))

/-- The state after a hardware reset: the reset column of 10_state.md R120. IBUF and PCM_MEM are unspecified there
(assumption logs 2 and 3); IBUF_CAP is the test vectors' (log 4). -/
def State.reset : State where
  ctrl := 0
  engine := .idle
  session := .uninitialized
  pcmValid := false
  eos := false
  done := false
  err := .none
  pending := .none
  refillMax := 0
  refillCount := 0
  header := 0
  sampleRate := 0
  bitrate := 0
  srcChannels := 0
  pcmLength := 0
  pcmChannels := 0
  frames := 0
  resyncs := 0
  dropped := 0
  diagCause := .none
  dbgSel := 0
  ibuf := []
  avail := 0
  pos := 0
  eof := false
  refillErr := false
  res := []
  lock := none
  syn0 := zeroSyn
  syn1 := zeroSyn
  pcmMem := Vector.replicate 2304 0
  isSnap := zeroSnap
  ibufCap := 4096
  inputs := []
  busData := 0
  busError := false
  epoch := 0

end Sys2Proof.Machine
end

