-- ==== Sys2Proof/Machine/Operands.lean ====
section
/-! DEFINITION. The operands of host accesses: the register map, what an offset and a size reach, and the fields of the
words a host writes (spec 10 R55, 20 R151 to R158, 30 R204). -/

namespace Sys2Proof.Machine

/-- The offset of a register (10_state.md R55). -/
def Reg.offset : Reg → Nat
  | .id          => 0x000
  | .ctrl        => 0x004
  | .cmd         => 0x008
  | .status      => 0x00C
  | .refillMax   => 0x010
  | .refillCount => 0x014
  | .inData      => 0x018
  | .header      => 0x01C
  | .sampleRate  => 0x020
  | .bitrate     => 0x024
  | .srcChannels => 0x028
  | .pcmLength   => 0x02C
  | .pcmChannels => 0x030
  | .frames      => 0x034
  | .resyncs     => 0x038
  | .dropped     => 0x03C
  | .diagCause   => 0x040
  | .bufLevel    => 0x044
  | .dbgSel      => 0x048
  | .dbgData     => 0x04C

/-- The registers of the map (10_state.md R55). -/
def registers : List Reg :=
  [.id, .ctrl, .cmd, .status, .refillMax, .refillCount, .inData, .header, .sampleRate, .bitrate, .srcChannels,
   .pcmLength, .pcmChannels, .frames, .resyncs, .dropped, .diagCause, .bufLevel, .dbgSel, .dbgData]

/-- The register at an offset (10_state.md R55). -/
def regAt (off : Nat) : Option Reg := registers.find? (fun r => r.offset = off)

/-- An access that is misaligned anywhere in the window (20_memory.md R158). -/
def misaligned (off len : Nat) : Bool := (len = 2 && off % 2 ≠ 0) || (len = 4 && off % 4 ≠ 0)

/-- What an access of `len` bytes at offset `off` reaches (20_memory.md R151 to R158). DESIGN CHOICE (assumption log 23):
an access belongs to the region of its first byte, also where it runs over the region's or the window's end, of which the
spec says nothing. -/
def targetOf (off len : Nat) : Target :=
  if 0x4000 ≤ off then .outside
  else if misaligned off len then .busError
  else if off < 0x1000 then
    if len = 4 then (match regAt off with | some r => .reg r | none => .unmapped) else .busError
  else if 0x2000 ≤ off ∧ off < 0x3200 then
    if len = 2 then .pcm2 ((off - 0x2000) / 2)
    else if len = 4 then .pcm4 ((off - 0x2000) / 4)
    else if len = 1 ∨ 4 < len then .busError
    else .otherPcm
  else if len = 2 ∨ len = 4 then .unmapped
  else .otherGap

/-- The byte that a word written to IN_DATA carries (10_state.md R66; 30_encoding.md R204). -/
def inDataByte (v : Word) : Byte := v.extractLsb' 0 8

/-- The writable bits of CTRL (10_state.md R61). -/
def ctrlMask : Word := 0x00000003#32

/-- The writable bits of DBG_SEL (10_state.md R78). -/
def dbgSelMask : Word := 0x00000FFF#32

/-- `DBG_SEL.LINE` (10_state.md R78). -/
def dbgLine (v : Word) : Nat := (v.extractLsb' 0 10).toNat

/-- `DBG_SEL.CH` (10_state.md R78). -/
def dbgCh (v : Word) : Nat := (v.extractLsb' 10 1).toNat

/-- `DBG_SEL.GR` (10_state.md R78). -/
def dbgGr (v : Word) : Nat := (v.extractLsb' 11 1).toNat

/-- `CTRL.FORCE_STEREO` (10_state.md R61). -/
def forceStereo (s : State) : Bool := s.ctrl.getLsbD 0

/-- `CTRL.IRQ_EN` (10_state.md R61). -/
def irqEnabled (s : State) : Bool := s.ctrl.getLsbD 1

end Sys2Proof.Machine
end

