-- ==== Sys2Proof/Machine/Flags.lean ====
section
/-! DEFINITION. The STATUS register and its field codes, and the interrupt output (spec 10 R63, 60 R702, R704, R710). -/

namespace Sys2Proof.Machine

/-- The ENGINE field (10_state.md R63). -/
def Engine.code : Engine → BitVec 2
  | .idle     => 0
  | .busy     => 1
  | .needData => 2

/-- The SESSION field (10_state.md R63). -/
def Session.code : Session → BitVec 2
  | .uninitialized => 0
  | .streaming     => 1
  | .exhausted     => 2

/-- The PENDING field (10_state.md R63): the opcode of the command in progress. -/
def Pending.code : Pending → BitVec 4
  | .none    => 0
  | .opening => 2
  | .pulling => 3

/-- The ERR field (60_exceptions.md R704). -/
def HostErr.code : HostErr → BitVec 4
  | .none       => 0
  | .illegalCmd => 1
  | .busy       => 2
  | .noSession  => 3
  | .fileError  => 4
  | .protocol   => 5
  | .overflow   => 6

/-- The code of DIAG_CAUSE (60_exceptions.md R702). -/
def Cause.code : Cause → BitVec 4
  | .none               => 0
  | .syncSkip           => 1
  | .reservoirUnderflow => 2
  | .part23Overrun      => 3
  | .badBlockType       => 4
  | .bigValuesRange     => 5
  | .badTable           => 6
  | .scalefacOverrun    => 7
  | .huffmanOverrun     => 8
  | .badHuffcode        => 9

/-- STATUS (10_state.md R63), from bit 31 down. -/
def statusWord (s : State) : Word :=
  0#16 ++ s.pending.code ++ s.err.code ++ BitVec.ofBool s.done ++ BitVec.ofBool s.eof ++ BitVec.ofBool s.eos ++
    BitVec.ofBool s.pcmValid ++ s.session.code ++ s.engine.code

/-- The interrupt output (60_exceptions.md R710). -/
def irqLine (s : State) : Bool := irqEnabled s && (s.done || s.engine = .needData)

end Sys2Proof.Machine
end

