-- ==== Sys2Proof/Machine/Bits.lean ====
section
/-! DEFINITION. The bitstream reader's bit order and `getbits` (spec 00 R11, 10 R54, 42 R416). -/

namespace Sys2Proof.Machine

/-- The bits of a byte, most significant first (00_scope.md R11). -/
def byteBits (b : Byte) : List Bool :=
  [b.getMsbD 0, b.getMsbD 1, b.getMsbD 2, b.getMsbD 3, b.getMsbD 4, b.getMsbD 5, b.getMsbD 6, b.getMsbD 7]

/-- The bits of a byte sequence in reading order (20_memory.md R156). -/
def bytesBits (l : List Byte) : List Bool := l.flatMap byteBits

/-- A bit cursor (10_state.md R54): the index of the next bit, and the bits from there on. -/
structure Cursor where
  pos  : Nat
  rest : List Bool
deriving DecidableEq, Repr

/-- The cursor at bit index `p` of a bit sequence. -/
def Cursor.at (bits : List Bool) (p : Nat) : Cursor := ⟨p, bits.drop p⟩

/-- The next bit and the cursor after it. Past the end a bit is 0 (42_side_info_main_data.md R416). -/
def Cursor.next (c : Cursor) : Bool × Cursor :=
  match c.rest with
  | []      => (false, ⟨c.pos + 1, []⟩)
  | b :: bs => (b, ⟨c.pos + 1, bs⟩)

/-- `n` more bits below the number `acc`. -/
def Cursor.getBitsFrom (acc : Nat) : Nat → Cursor → Nat × Cursor
  | 0, c     => (acc, c)
  | n + 1, c => Cursor.getBitsFrom (2 * acc + c.next.1.toNat) n c.next.2

/-- `getbits(n)` (00_scope.md R11): an unsigned number whose first bit is its most significant. -/
def Cursor.getBits (n : Nat) (c : Cursor) : Nat × Cursor := Cursor.getBitsFrom 0 n c

/-- `getbits(1)` as a flag. -/
def Cursor.getFlag (c : Cursor) : Bool × Cursor := c.next

/-- The `n` bits that `getbits(n)` reads as `v`, most significant first. -/
def natBits : Nat → Nat → List Bool
  | 0, _     => []
  | n + 1, v => v.testBit n :: natBits n v

/-- A list of exactly `n` entries: `l` cut or filled up with `d`. -/
def fillTo {α : Type} (n : Nat) (d : α) (l : List α) : Vector α n :=
  ⟨((l ++ List.replicate n d).take n).toArray, by simp⟩

/-- The `n` entries `f 0 .. f (n-1)`. -/
def tabulate {α : Type} (n : Nat) (f : Nat → α) : Vector α n := ⟨((List.range n).map f).toArray, by simp⟩

end Sys2Proof.Machine
end

