-- ==== Sys2Proof/Machine/Header.lean ====
section
/-! DEFINITION. The frame header: fields, tables, validity, frame length and layout (spec 30 R210 to R216, 41 R352 to
R357). -/

namespace Sys2Proof

/-- The header fields of the word `H = b0 : b1 : b2 : b3` (30_encoding.md R210). -/
def headerOfWord (H : Word) : Header where
  sync              := H.extractLsb' 20 12
  id                := H.extractLsb' 19 1
  layer             := H.extractLsb' 17 2
  protection        := H.extractLsb' 16 1
  bitrateIndex      := H.extractLsb' 12 4
  samplingFrequency := H.extractLsb' 10 2
  padding           := H.extractLsb' 9 1
  privateBit        := H.extractLsb' 8 1
  mode              := H.extractLsb' 6 2
  modeExtension     := H.extractLsb' 4 2
  copyright         := H.extractLsb' 3 1
  original          := H.extractLsb' 2 1
  emphasis          := H.extractLsb' 0 2

/-- The word of header fields (30_encoding.md R210). -/
def wordOfHeader (h : Header) : Word :=
  h.sync ++ h.id ++ h.layer ++ h.protection ++ h.bitrateIndex ++ h.samplingFrequency ++ h.padding ++ h.privateBit ++
    h.mode ++ h.modeExtension ++ h.copyright ++ h.original ++ h.emphasis

/-- The big-endian word of four bytes (20_memory.md R156). -/
def wordOfBytes (b0 b1 b2 b3 : Byte) : Word := b0 ++ b1 ++ b2 ++ b3

/-- The sync test (41_frame_header.md R352). -/
def syncOk (h : Header) : Bool := h.sync = 0xFFF#12

/-- The validity test (41_frame_header.md R353): MPEG-1, Layer III, bitrate_index not 15, sampling_frequency not 3. -/
def headerValid (h : Header) : Bool :=
  h.id = 1#1 && h.layer = 0b01#2 && h.bitrateIndex ≠ 15#4 && h.samplingFrequency ≠ 3#2

/-- Free format (41_frame_header.md R357). -/
def freeFormat (h : Header) : Bool := h.bitrateIndex = 0#4

/-- The bitrates in kbit/s by bitrate_index (30_encoding.md R212). Indices 0 (free) and 15 (forbidden) have none and
hold 0 here; no rule reads it. -/
def bitrateTable : List Nat := [0, 32, 40, 48, 56, 64, 80, 96, 112, 128, 160, 192, 224, 256, 320, 0]

/-- `kbps` (30_encoding.md R212; 41_frame_header.md R355). -/
def Header.kbps (h : Header) : Nat := bitrateTable.getD h.bitrateIndex.toNat 0

/-- The sampling frequencies in Hz (30_encoding.md R213). Index 3 is reserved and holds 0 here; no rule reads it. -/
def frequencyTable : List Nat := [44100, 48000, 32000, 0]

/-- `fs` (30_encoding.md R213). -/
def Header.fs (h : Header) : Nat := frequencyTable.getD h.samplingFrequency.toNat 0

/-- `nch` (30_encoding.md R214). -/
def Header.nch (h : Header) : Nat := if h.mode = 3#2 then 1 else 2

/-- Joint stereo (30_encoding.md R214). -/
def Header.joint (h : Header) : Bool := h.mode = 1#2

/-- `ms_stereo` (30_encoding.md R214; 44_requantize_stereo.md R520). -/
def Header.msStereo (h : Header) : Bool := h.mode = 1#2 && h.modeExtension.getLsbD 1

/-- `intensity_stereo` (30_encoding.md R214; 44_requantize_stereo.md R522). -/
def Header.intensityStereo (h : Header) : Bool := h.mode = 1#2 && h.modeExtension.getLsbD 0

/-- The header as decoding acts on it (30_encoding.md R211, R214, R215): private_bit, copyright, original and emphasis
are ignored, and so is mode_extension in every mode but joint stereo. An ignored field is 0 here. -/
def Header.heeded (h : Header) : Header :=
  { h with
    privateBit := 0, copyright := 0, original := 0, emphasis := 0
    modeExtension := if h.joint then h.modeExtension else 0 }

/-- `C`, the bytes of the CRC word (30_encoding.md R216). -/
def Header.crcBytes (h : Header) : Nat := if h.protection = 0#1 then 2 else 0

/-- `SI`, the bytes of the side information (30_encoding.md R216). -/
def Header.sideInfoBytes (h : Header) : Nat := if h.nch = 1 then 17 else 32

/-- `L`, the frame length in bytes (41_frame_header.md R356). -/
def Header.frameLength (h : Header) : Nat := 144000 * h.kbps / h.fs + h.padding.toNat

/-- The byte offset of the main data in the frame (30_encoding.md R216). -/
def Header.mainDataOffset (h : Header) : Nat := 4 + h.crcBytes + h.sideInfoBytes

/-- The side-information bytes of a frame (30_encoding.md R216). -/
def sideInfoOf (h : Header) (frame : List Byte) : List Byte :=
  (frame.drop (4 + h.crcBytes)).take (h.sideInfoBytes)

/-- The main-data bytes of a frame (30_encoding.md R216). -/
def mainDataOf (h : Header) (frame : List Byte) : List Byte := frame.drop (h.mainDataOffset)

end Sys2Proof
end

