-- ==== Sys2Proof/Machine/SideInfo.lean ====
section
/-! DEFINITION. The side information: its parse, its layouts and its checks (spec 30 R217 to R220, 42 R400, R401, R419),
and beside the parse the bits that a value of it is laid out as. -/

namespace Sys2Proof.Machine

/-- A granule/channel block (30_encoding.md R219), field after field, in the layout that window_switching_flag selects.
A field that the layout does not carry is 0 (42_side_info_main_data.md R400; 30_encoding.md R220). -/
def parseGranule (c : Cursor) : GranuleInfo × Cursor :=
  let (part23Length, c) := c.getBits 12
  let (bigValues, c) := c.getBits 9
  let (globalGain, c) := c.getBits 8
  let (scalefacCompress, c) := c.getBits 4
  let (windowSwitching, c) := c.getFlag
  if windowSwitching then
    let (blockType, c) := c.getBits 2
    let (mixedBlock, c) := c.getFlag
    let (tableSelect0, c) := c.getBits 5
    let (tableSelect1, c) := c.getBits 5
    let (subblockGain0, c) := c.getBits 3
    let (subblockGain1, c) := c.getBits 3
    let (subblockGain2, c) := c.getBits 3
    let (preflag, c) := c.getFlag
    let (scalefacScale, c) := c.getFlag
    let (count1Table, c) := c.getFlag
    ({ part23Length, bigValues, globalGain, scalefacCompress, windowSwitching, blockType, mixedBlock, tableSelect0,
       tableSelect1, tableSelect2 := 0, subblockGain0, subblockGain1, subblockGain2, region0Count := 0,
       region1Count := 0, preflag, scalefacScale, count1Table }, c)
  else
    let (tableSelect0, c) := c.getBits 5
    let (tableSelect1, c) := c.getBits 5
    let (tableSelect2, c) := c.getBits 5
    let (region0Count, c) := c.getBits 4
    let (region1Count, c) := c.getBits 3
    let (preflag, c) := c.getFlag
    let (scalefacScale, c) := c.getFlag
    let (count1Table, c) := c.getFlag
    ({ part23Length, bigValues, globalGain, scalefacCompress, windowSwitching, blockType := 0, mixedBlock := false,
       tableSelect0, tableSelect1, tableSelect2, subblockGain0 := 0, subblockGain1 := 0, subblockGain2 := 0,
       region0Count, region1Count, preflag, scalefacScale, count1Table }, c)

/-- The side information of a frame of `nch` channels (30_encoding.md R217, R218; 42_side_info_main_data.md R400).
The bits that carry no meaning (5 of them in one channel, 3 in two) are read and ignored. -/
def parseSideInfo (nch : Nat) (c : Cursor) : SideInfo :=
  let (mainDataBegin, c) := c.getBits 9
  if nch = 1 then
    let (_, c) := c.getBits 5
    let (scfsi0, c) := c.getBits 4
    let (g0c0, c) := parseGranule c
    let (g1c0, _) := parseGranule c
    { mainDataBegin, scfsi0, scfsi1 := 0, g0c0, g0c1 := default, g1c0, g1c1 := default }
  else
    let (_, c) := c.getBits 3
    let (scfsi0, c) := c.getBits 4
    let (scfsi1, c) := c.getBits 4
    let (g0c0, c) := parseGranule c
    let (g0c1, c) := parseGranule c
    let (g1c0, c) := parseGranule c
    let (g1c1, _) := parseGranule c
    { mainDataBegin, scfsi0, scfsi1, g0c0, g0c1, g1c0, g1c1 }

/-- The 59 bits of a granule/channel block (30_encoding.md R219). -/
def granuleBits (g : GranuleInfo) : List Bool :=
  natBits 12 g.part23Length ++ natBits 9 g.bigValues ++ natBits 8 g.globalGain ++ natBits 4 g.scalefacCompress ++
    [g.windowSwitching] ++
    (if g.windowSwitching then
      natBits 2 g.blockType ++ [g.mixedBlock] ++ natBits 5 g.tableSelect0 ++ natBits 5 g.tableSelect1 ++
        natBits 3 g.subblockGain0 ++ natBits 3 g.subblockGain1 ++ natBits 3 g.subblockGain2
    else
      natBits 5 g.tableSelect0 ++ natBits 5 g.tableSelect1 ++ natBits 5 g.tableSelect2 ++ natBits 4 g.region0Count ++
        natBits 3 g.region1Count) ++
    [g.preflag, g.scalefacScale, g.count1Table]

/-- The bits of the side information (30_encoding.md R217, R218), the ignored bits holding the number `ignored`. -/
def sideInfoBits (nch ignored : Nat) (s : SideInfo) : List Bool :=
  natBits 9 s.mainDataBegin ++
    (if nch = 1 then
      natBits 5 ignored ++ natBits 4 s.scfsi0 ++ granuleBits s.g0c0 ++ granuleBits s.g1c0
    else
      natBits 3 ignored ++ natBits 4 s.scfsi0 ++ natBits 4 s.scfsi1 ++ granuleBits s.g0c0 ++ granuleBits s.g0c1 ++
        granuleBits s.g1c0 ++ granuleBits s.g1c1)

/-- The values a granule/channel block can carry: each field within its width (30_encoding.md R219), and 0 where its
layout does not carry it. -/
def granuleFits (g : GranuleInfo) : Bool :=
  g.part23Length < 4096 && g.bigValues < 512 && g.globalGain < 256 && g.scalefacCompress < 16 && g.blockType < 4 &&
    g.tableSelect0 < 32 && g.tableSelect1 < 32 && g.tableSelect2 < 32 && g.subblockGain0 < 8 && g.subblockGain1 < 8 &&
    g.subblockGain2 < 8 && g.region0Count < 16 && g.region1Count < 8 &&
    (if g.windowSwitching then g.tableSelect2 = 0 && g.region0Count = 0 && g.region1Count = 0
     else g.blockType = 0 && g.mixedBlock = false && g.subblockGain0 = 0 && g.subblockGain1 = 0 && g.subblockGain2 = 0)

/-- The values the side information of `nch` channels can carry. -/
def sideInfoFits (nch : Nat) (s : SideInfo) : Bool :=
  s.mainDataBegin < 512 && s.scfsi0 < 16 && s.scfsi1 < 16 && granuleFits s.g0c0 && granuleFits s.g0c1 &&
    granuleFits s.g1c0 && granuleFits s.g1c1 &&
    (nch ≠ 1 || (s.scfsi1 = 0 && s.g0c1 = default && s.g1c1 = default))

/-- The blocks of a frame in decoding order: g0c0, g0c1, g1c0, g1c1, channel 1 only when there are two channels
(42_side_info_main_data.md R410, R417). -/
def granulesInOrder (nch : Nat) (s : SideInfo) : List GranuleInfo :=
  if nch = 1 then [s.g0c0, s.g1c0] else [s.g0c0, s.g0c1, s.g1c0, s.g1c1]

/-- The check of one block (42_side_info_main_data.md R419). DEDUCED (assumption log 24): of the two checks the one that
the rule lists first comes first, of whose order within one block the spec says nothing more. -/
def granuleCheck (g : GranuleInfo) : Option Cause :=
  if g.windowSwitching && g.blockType = 0 then some .badBlockType
  else if 288 < g.bigValues then some .bigValuesRange
  else none

/-- The side-information checks, in order (42_side_info_main_data.md R419; 60_exceptions.md R703). -/
def sideInfoCheck (nch : Nat) (s : SideInfo) : Option Cause := (granulesInOrder nch s).findSome? granuleCheck

/-- The sum of part2_3_length over the frame (42_side_info_main_data.md R414). -/
def totalPart23 (nch : Nat) (s : SideInfo) : Nat := ((granulesInOrder nch s).map (·.part23Length)).sum

/-- `scfsi[ch][band]` from the four bits of a channel, band 0 the first bit read (30_encoding.md R217, R218). -/
def scfsiBit (scfsi band : Nat) : Bool := scfsi.testBit (3 - band)

end Sys2Proof.Machine
end

