-- ==== Sys2Proof/Machine/Scalefactors.lean ====
section
/-! DEFINITION. Scalefactor bands, the line layouts and the scalefactors of a part (spec 42 R420 to R427, 30 R221). -/

namespace Sys2Proof.Machine

/-- `sfbL[0..22]` at 44100, 48000 and 32000 Hz (42_side_info_main_data.md R420). -/
def longBounds : List (List Nat) :=
  [[0, 4, 8, 12, 16, 20, 24, 30, 36, 44, 52, 62, 74, 90, 110, 134, 162, 196, 238, 288, 342, 418, 576],
   [0, 4, 8, 12, 16, 20, 24, 30, 36, 42, 50, 60, 72, 88, 106, 128, 156, 190, 230, 276, 330, 384, 576],
   [0, 4, 8, 12, 16, 20, 24, 30, 36, 44, 54, 66, 82, 102, 126, 156, 194, 240, 296, 364, 448, 550, 576]]

/-- `sfbS[0..13]` at 44100, 48000 and 32000 Hz (42_side_info_main_data.md R420). -/
def shortBounds : List (List Nat) :=
  [[0, 4, 8, 12, 16, 22, 30, 40, 52, 66, 84, 106, 136, 192],
   [0, 4, 8, 12, 16, 22, 28, 38, 50, 64, 80, 100, 126, 192],
   [0, 4, 8, 12, 16, 22, 30, 42, 58, 78, 104, 138, 180, 192]]

/-- `sfbL[s]` for the header's sampling_frequency (42_side_info_main_data.md R420). -/
def sfbL (freq s : Nat) : Nat := (longBounds.getD freq []).getD s 576

/-- `sfbS[s]` for the header's sampling_frequency (42_side_info_main_data.md R420). -/
def sfbS (freq s : Nat) : Nat := (shortBounds.getD freq []).getD s 192

/-- `wS[s]`, the width of short band `s` (42_side_info_main_data.md R420). -/
def shortWidth (freq s : Nat) : Nat := sfbS freq (s + 1) - sfbS freq s

/-- Where a line lies (42_side_info_main_data.md R421): a long band, or a short band, its window and its frequency
within the band. -/
inductive LinePlace where
  | long (s : Nat)
  | short (s w f : Nat)
deriving DecidableEq, Repr

/-- The long band of line `i`: the `s` with `sfbL[s] <= i < sfbL[s+1]` (42_side_info_main_data.md R421). -/
def longBandOf (freq i : Nat) : Nat := ((List.range 22).find? (fun s => i < sfbL freq (s + 1))).getD 21

/-- The short band of line `i` (42_side_info_main_data.md R421). -/
def shortBandOf (freq i : Nat) : Nat := ((List.range 13).find? (fun s => i < 3 * sfbS freq (s + 1))).getD 12

/-- The place of line `i` in a short band (42_side_info_main_data.md R421). -/
def shortPlace (freq i : Nat) : LinePlace :=
  let s := shortBandOf freq i
  let d := i - 3 * sfbS freq s
  .short s (d / shortWidth freq s) (d % shortWidth freq s)

/-- The line layout of a granule/channel (42_side_info_main_data.md R421): long, short, or mixed. -/
def linePlace (freq : Nat) (g : GranuleInfo) (i : Nat) : LinePlace :=
  if g.blockType = 2 then
    if g.mixedBlock && i < 36 then .long (longBandOf freq i) else shortPlace freq i
  else .long (longBandOf freq i)

/-- `slen1` by scalefac_compress (30_encoding.md R221). -/
def slen1Table : List Nat := [0, 0, 0, 0, 3, 1, 1, 1, 2, 2, 2, 3, 3, 3, 4, 4]

/-- `slen2` by scalefac_compress (30_encoding.md R221). -/
def slen2Table : List Nat := [0, 1, 2, 3, 0, 1, 2, 3, 1, 2, 3, 1, 2, 3, 2, 3]

/-- `slen1` (42_side_info_main_data.md R422). -/
def slen1 (g : GranuleInfo) : Nat := slen1Table.getD g.scalefacCompress 0

/-- `slen2` (42_side_info_main_data.md R422). -/
def slen2 (g : GranuleInfo) : Nat := slen2Table.getD g.scalefacCompress 0

/-- The width of long scalefactor `sfb` (42_side_info_main_data.md R422). -/
def longWidthBits (g : GranuleInfo) (sfb : Nat) : Nat := if sfb ≤ 10 then slen1 g else slen2 g

/-- The width of short scalefactor `sfb` (42_side_info_main_data.md R422). -/
def shortWidthBits (g : GranuleInfo) (sfb : Nat) : Nat := if sfb ≤ 5 then slen1 g else slen2 g

/-- The scfsi band of a long scalefactor band (42_side_info_main_data.md R401). -/
def scfsiBand (sfb : Nat) : Nat := if sfb ≤ 5 then 0 else if sfb ≤ 10 then 1 else if sfb ≤ 15 then 2 else 3

/-- All scalefactors 0 (10_state.md R97). -/
def noScalefac : Scalefac := ⟨Vector.replicate 22 0, Vector.replicate 39 0⟩

/-- The long scalefactors of the bands listed, read or copied from granule 0 (42_side_info_main_data.md R423). -/
def readLong (copied : Nat → Bool) (prev : Scalefac) (g : GranuleInfo) : List Nat → Cursor → List Nat × Cursor
  | [], c => ([], c)
  | sfb :: more, c =>
    if copied sfb then
      let r := readLong copied prev g more c
      (prev.long.toList.getD sfb 0 :: r.1, r.2)
    else
      let v := c.getBits (longWidthBits g sfb)
      let r := readLong copied prev g more v.2
      (v.1 :: r.1, r.2)

/-- The short scalefactors of the bands listed, three windows each (42_side_info_main_data.md R424, R425). -/
def readShort (g : GranuleInfo) : List Nat → Cursor → List Nat × Cursor
  | [], c => ([], c)
  | sfb :: more, c =>
    let w0 := c.getBits (shortWidthBits g sfb)
    let w1 := w0.2.getBits (shortWidthBits g sfb)
    let w2 := w1.2.getBits (shortWidthBits g sfb)
    let r := readShort g more w2.2
    (w0.1 :: w1.1 :: w2.1 :: r.1, r.2)

/-- The scalefactors of a part, part 2 (42_side_info_main_data.md R423 to R427). `gr` is the granule, `scfsi` the
channel's four bits, `prev` the scalefactors of granule 0 of the channel. -/
def readScalefac (gr scfsi : Nat) (prev : Scalefac) (g : GranuleInfo) (c : Cursor) : Scalefac × Cursor :=
  if g.blockType = 2 then
    if g.mixedBlock then
      let l := readLong (fun _ => false) prev g (List.range 8) c
      let r := readShort g (List.range' 3 9) l.2
      (⟨fillTo 22 0 l.1, fillTo 39 0 (List.replicate 9 0 ++ r.1)⟩, r.2)
    else
      let r := readShort g (List.range 12) c
      (⟨fillTo 22 0 [], fillTo 39 0 r.1⟩, r.2)
  else
    let l := readLong (fun sfb => gr = 1 && scfsiBit scfsi (scfsiBand sfb)) prev g (List.range 21) c
    (⟨fillTo 22 0 l.1, fillTo 39 0 []⟩, l.2)

end Sys2Proof.Machine
end

