-- ==== Sys2Proof/Machine/Huffman.lean ====
section
/-! DEFINITION. Huffman decoding of the spectral values (spec 43, 30 R223 to R225), and beside it the bits that a pair or
a quadruple of values is coded as. -/

namespace Sys2Proof.Machine

/-- Code set H1, given in full (43_huffman.md R452). -/
def codesH1 : List Code :=
  [⟨[true], 0, 0⟩, ⟨[false, false, true], 0, 1⟩, ⟨[false, true], 1, 0⟩, ⟨[false, false, false], 1, 1⟩]

/-- Count1 table A (43_huffman.md R455), the quadruple's number `q` in `x`. -/
def quadTableA : List Code :=
  [⟨[true], 0, 0⟩,
   ⟨[false, true, false, true], 1, 0⟩,
   ⟨[false, true, false, false], 2, 0⟩,
   ⟨[false, false, true, false, true], 3, 0⟩,
   ⟨[false, true, true, false], 4, 0⟩,
   ⟨[false, false, false, true, false, true], 5, 0⟩,
   ⟨[false, false, true, false, false], 6, 0⟩,
   ⟨[false, false, false, true, false, false], 7, 0⟩,
   ⟨[false, true, true, true], 8, 0⟩,
   ⟨[false, false, false, true, true], 9, 0⟩,
   ⟨[false, false, true, true, false], 10, 0⟩,
   ⟨[false, false, false, false, false, false], 11, 0⟩,
   ⟨[false, false, true, true, true], 12, 0⟩,
   ⟨[false, false, false, false, true, false], 13, 0⟩,
   ⟨[false, false, false, false, true, true], 14, 0⟩,
   ⟨[false, false, false, false, false, true], 15, 0⟩]

/-- Count1 table B (43_huffman.md R455): the codeword of `q` is the 4-bit value `15 - q`. -/
def quadTableB : List Code := (List.range 16).map (fun q => ⟨natBits 4 (15 - q), q, 0⟩)

/-- The code set of a table_select (43_huffman.md R452), 0 for the tables with none: 0, 4 and 14. -/
def codeSetNumber (t : Nat) : Nat :=
  if t = 4 ∨ t = 14 then 0 else if t ≤ 15 then t else if t ≤ 23 then 16 else 24

/-- `dim` of a code set (43_huffman.md R452). -/
def codeSetDim (n : Nat) : Nat :=
  if n = 1 then 2
  else if n = 2 ∨ n = 3 then 3
  else if n = 5 ∨ n = 6 then 4
  else if n = 7 ∨ n = 8 ∨ n = 9 then 6
  else if n = 10 ∨ n = 11 ∨ n = 12 then 8
  else 16

/-- `linbits` by table_select (43_huffman.md R452). -/
def linbitsTable : List Nat :=
  [0, 0, 0, 0, 0, 0, 0, 0, 0, 0, 0, 0, 0, 0, 0, 0, 1, 2, 3, 4, 6, 8, 10, 13, 4, 5, 6, 7, 8, 9, 11, 13]

/-- `linbits(t)` (43_huffman.md R452). -/
def linbits (t : Nat) : Nat := linbitsTable.getD t 0

/-- No codeword of the list begins another (43_huffman.md R452). -/
def noneBeginsAnother : List Code → Bool
  | []      => true
  | k :: ks => ks.all (fun j => !k.bits.isPrefixOf j.bits && !j.bits.isPrefixOf k.bits) && noneBeginsAnother ks

/-- The constraints on a code set of dimension `dim` (43_huffman.md R452): no codeword begins another, exactly
`dim * dim` codewords, one for each pair, none longer than 19 bits. -/
def codeSetValid (dim : Nat) (l : List Code) : Bool :=
  l.length = dim * dim && l.all (fun k => k.x < dim && k.y < dim && k.bits.length ≤ 19) &&
    (List.range (dim * dim)).all (fun j => l.any (fun k => k.x = j / dim && k.y = j % dim)) &&
    noneBeginsAnother l

/-- A code set that meets the constraints: the pair's number in 8 bits. -/
def plainCodes (dim : Nat) : List Code :=
  (List.range (dim * dim)).map (fun j => ⟨natBits 8 j, j / dim, j % dim⟩)

/-- Code set `n`: H1 as given, every other one the parameter HUFF_TABLES, which is taken where it meets the constraints
(43_huffman.md R452; assumption log 10). Set 0 holds no codeword. -/
def codeSet (n : Nat) : List Code :=
  if n = 0 then []
  else if n = 1 then codesH1
  else if codeSetValid (codeSetDim n) (Config.huffTables n) then Config.huffTables n
  else plainCodes (codeSetDim n)

/-- The length of the longest codeword (30_encoding.md R225). -/
def longestCode (l : List Code) : Nat := (l.map (·.bits.length)).foldl max 0

/-- Matches a codeword at the cursor, reading bits one at a time until the bits read so far equal a codeword
(30_encoding.md R225). The number is how many more bits may be read; `none` when they are used up (43_huffman.md R459). -/
def matchCode (codes : List Code) : Nat → List Bool → Cursor → Option (Code × Cursor)
  | 0, _, _       => none
  | n + 1, got, c =>
    match codes.find? (fun k => k.bits == got ++ [c.next.1]) with
    | some k => some (k, c.next.2)
    | none   => matchCode codes n (got ++ [c.next.1]) c.next.2

/-- One value of a pair after its codeword: the linbits escape and the sign (43_huffman.md R458; 30_encoding.md R223). -/
def pairValue (lb v : Nat) (c : Cursor) : Int × Cursor :=
  let r := if 0 < lb ∧ v = 15 then (let e := c.getBits lb; (15 + e.1, e.2)) else (v, c)
  if r.1 = 0 then (0, r.2)
  else if r.2.next.1 then (-(r.1 : Int), r.2.next.2) else ((r.1 : Int), r.2.next.2)

/-- `decode_pair(t)` (43_huffman.md R454, R458, R459). -/
def decodePair (t : Nat) (c : Cursor) : Except Cause ((Int × Int) × Cursor) :=
  if t = 0 then .ok ((0, 0), c)
  else
    let codes := codeSet (codeSetNumber t)
    match matchCode codes (longestCode codes) [] c with
    | none => .error .badHuffcode
    | some (k, c1) =>
      let x := pairValue (linbits t) k.x c1
      let y := pairValue (linbits t) k.y x.2
      .ok ((x.1, y.1), y.2)

/-- The sign of one value of a quadruple, read when its bit is 1 (43_huffman.md R461). -/
def quadValue (b : Bool) (c : Cursor) : Int × Cursor :=
  if b then (if c.next.1 then -1 else 1, c.next.2) else (0, c)

/-- The count1 table that count1table_select selects (43_huffman.md R455). -/
def quadTable (sel : Bool) : List Code := if sel then quadTableB else quadTableA

/-- `decode_quad(sel)` (43_huffman.md R461). Both tables are complete, so a codeword always matches. -/
def decodeQuad (sel : Bool) (c : Cursor) : List Int × Cursor :=
  let m := (matchCode (quadTable sel) (longestCode (quadTable sel)) [] c).getD (default, c)
  let v := quadValue (m.1.x.testBit 3) m.2
  let w := quadValue (m.1.x.testBit 2) v.2
  let x := quadValue (m.1.x.testBit 1) w.2
  let y := quadValue (m.1.x.testBit 0) x.2
  ([v.1, w.1, x.1, y.1], y.2)

/-- The sign bit of a value, if it is nonzero (30_encoding.md R223, R224). -/
def signBits (x : Int) : List Bool := if x = 0 then [] else [decide (x < 0)]

/-- What follows the codeword for one value `x` whose codeword entry is `v` (30_encoding.md R223): the linbits of an
escape, and the sign of a nonzero value. -/
def valueBits (lb v : Nat) (x : Int) : List Bool :=
  (if 0 < lb ∧ v = 15 then natBits lb (x.natAbs - 15) else []) ++ signBits x

/-- The values that a codeword entry `v` can stand for (43_huffman.md R458): magnitude `v`, or 15 and more through an
escape of `lb` bits. -/
def valueFits (lb v : Nat) (x : Int) : Bool :=
  if 0 < lb ∧ v = 15 then decide (15 ≤ x.natAbs) && decide (x.natAbs < 15 + 2 ^ lb) else decide (x.natAbs = v)

/-- The bits of a pair coded with codeword `k` of table `t` (30_encoding.md R223). -/
def pairBits (t : Nat) (k : Code) (x y : Int) : List Bool :=
  k.bits ++ valueBits (linbits t) k.x x ++ valueBits (linbits t) k.y y

/-- The codeword of the quadruple numbered `q` (43_huffman.md R455). -/
def quadCode (sel : Bool) (q : Nat) : List Bool := (((quadTable sel).find? (fun k => k.x = q)).getD default).bits

/-- `q = 8v' + 4w' + 2x' + y'` (43_huffman.md R455). -/
def quadNumber (v w x y : Int) : Nat := 8 * min v.natAbs 1 + 4 * min w.natAbs 1 + 2 * min x.natAbs 1 + min y.natAbs 1

/-- The bits of a quadruple (30_encoding.md R224). -/
def quadBits (sel : Bool) (v w x y : Int) : List Bool :=
  quadCode sel (quadNumber v w x y) ++ signBits v ++ signBits w ++ signBits x ++ signBits y

/-- `bv2`, the lines of the big_values region (43_huffman.md R451). -/
def bv2 (g : GranuleInfo) : Nat := 2 * g.bigValues

/-- `r1` (43_huffman.md R451). -/
def regionBound1 (freq : Nat) (g : GranuleInfo) : Nat :=
  min (if g.windowSwitching then 36 else sfbL freq (min (g.region0Count + 1) 22)) (bv2 g)

/-- `r2` (43_huffman.md R451). -/
def regionBound2 (freq : Nat) (g : GranuleInfo) : Nat :=
  min (if g.windowSwitching then 576 else sfbL freq (min (g.region0Count + g.region1Count + 2) 22)) (bv2 g)

/-- `table(i)` (43_huffman.md R451). -/
def tableOfLine (freq : Nat) (g : GranuleInfo) (i : Nat) : Nat :=
  if i < regionBound1 freq g then g.tableSelect0
  else if i < regionBound2 freq g then g.tableSelect1
  else g.tableSelect2

/-- Tables 4 and 14 do not exist (43_huffman.md R453). -/
def missingTable (t : Nat) : Bool := t = 4 || t = 14

/-- A region that holds a pair selects a missing table (43_huffman.md R453). -/
def badTables (freq : Nat) (g : GranuleInfo) : Bool :=
  (decide (0 < regionBound1 freq g) && missingTable g.tableSelect0) ||
    (decide (regionBound1 freq g < regionBound2 freq g) && missingTable g.tableSelect1) ||
    (decide (regionBound2 freq g < bv2 g) && missingTable g.tableSelect2)

/-- The big_values loop (43_huffman.md R456, R460): the pairs still to decode, the line of the next one, the cursor. -/
def bigValuesLoop (table : Nat → Nat) (partEnd : Nat) : Nat → Nat → Cursor → Except Cause (List Int × Cursor)
  | 0, _, c     => .ok ([], c)
  | n + 1, i, c =>
    match decodePair (table i) c with
    | .error e => .error e
    | .ok (p, c1) =>
      if partEnd < c1.pos then .error .huffmanOverrun
      else match bigValuesLoop table partEnd n (i + 2) c1 with
        | .error e => .error e
        | .ok (l, c2) => .ok (p.1 :: p.2 :: l, c2)

/-- The count1 loop (43_huffman.md R457, R462): how many quadruples still fit below line 576, and the cursor. -/
def count1Loop (sel : Bool) (partEnd : Nat) : Nat → Cursor → List Int
  | 0, _     => []
  | n + 1, c =>
    if c.pos < partEnd then
      let q := decodeQuad sel c
      if partEnd < q.2.pos then [] else q.1 ++ count1Loop sel partEnd n q.2
    else []

/-- The quantized values of a part, from the cursor after its scalefactors to `partEnd` (43_huffman.md R450 to R462).
Lines that no loop writes are 0. -/
def decodeSpectrum (freq : Nat) (g : GranuleInfo) (partEnd : Nat) (c : Cursor) : Except Cause Lines :=
  if badTables freq g then .error .badTable
  else match bigValuesLoop (tableOfLine freq g) partEnd g.bigValues 0 c with
    | .error e => .error e
    | .ok (l, c1) => .ok (fillTo 576 0 (l ++ count1Loop g.count1Table partEnd ((576 - bv2 g) / 4) c1))

/-- `nz`, one more than the highest nonzero line (43_huffman.md R463). -/
def nonzeroExtent (l : Lines) : Nat :=
  ((List.range 576).filter (fun i => l.toList.getD i 0 ≠ 0)).foldl (fun _ i => i + 1) 0

end Sys2Proof.Machine
end

