-- ==== Sys2Proof/Machine/MainData.lean ====
section
/-! DEFINITION. Frame decoding: the bit reservoir, the part positions, the checks and the parts in order (spec 42 R410
to R418). A result is what a frame decodes to or the one recoverable cause it is dropped for. -/

namespace Sys2Proof.Machine

/-- The trim of the reservoir (42_side_info_main_data.md R415). -/
def trimRes (res : List Byte) : List Byte := res.drop (res.length - Config.resKeep)

/-- One granule/channel: its scalefactors, the part-2 check and its spectral values (42_side_info_main_data.md R410
step 6, R417, R426). -/
def decodePart (freq gr scfsi : Nat) (prev : Scalefac) (g : GranuleInfo) (bits : List Bool) (partStart : Nat) :
    Except Cause Part :=
  let r := readScalefac gr scfsi prev g (Cursor.at bits partStart)
  if g.part23Length < r.2.pos - partStart then .error .scalefacOverrun
  else match decodeSpectrum freq g (partStart + g.part23Length) r.2 with
    | .error e => .error e
    | .ok lines => .ok ⟨g, r.1, lines⟩

/-- A part that the frame does not have: every entry 0 (10_state.md R97). -/
def noPart : Part := ⟨default, noScalefac, Vector.replicate 576 0⟩

/-- A channel that the frame does not have. -/
def noChan : ChanIn := ⟨0, noPart, noPart⟩

/-- The parts of a single-channel frame: g0c0, g1c0 (42_side_info_main_data.md R410, R417). -/
def decodeMono (freq : Nat) (s : SideInfo) (bits : List Bool) (start : Nat) : Except Cause (ChanIn × ChanIn) :=
  match decodePart freq 0 s.scfsi0 noScalefac s.g0c0 bits start with
  | .error e => .error e
  | .ok p00 =>
    match decodePart freq 1 s.scfsi0 p00.scf s.g1c0 bits (start + s.g0c0.part23Length) with
    | .error e => .error e
    | .ok p10 => .ok (⟨s.scfsi0, p00, p10⟩, noChan)

/-- The parts of a two-channel frame: g0c0, g0c1, g1c0, g1c1 (42_side_info_main_data.md R410, R417). -/
def decodeStereo (freq : Nat) (s : SideInfo) (bits : List Bool) (start : Nat) : Except Cause (ChanIn × ChanIn) :=
  match decodePart freq 0 s.scfsi0 noScalefac s.g0c0 bits start with
  | .error e => .error e
  | .ok p00 =>
    match decodePart freq 0 s.scfsi1 noScalefac s.g0c1 bits (start + s.g0c0.part23Length) with
    | .error e => .error e
    | .ok p01 =>
      match decodePart freq 1 s.scfsi0 p00.scf s.g1c0 bits
          (start + s.g0c0.part23Length + s.g0c1.part23Length) with
      | .error e => .error e
      | .ok p10 =>
        match decodePart freq 1 s.scfsi1 p01.scf s.g1c1 bits
            (start + s.g0c0.part23Length + s.g0c1.part23Length + s.g1c0.part23Length) with
        | .error e => .error e
        | .ok p11 => .ok (⟨s.scfsi0, p00, p10⟩, ⟨s.scfsi1, p01, p11⟩)

/-- The parts of a frame in order (42_side_info_main_data.md R410 step 6; 30_encoding.md R222). -/
def decodeParts (h : Header) (s : SideInfo) (bits : List Bool) (start : Nat) : Except Cause (ChanIn × ChanIn) :=
  if h.nch = 1 then decodeMono h.samplingFrequency.toNat s bits start
  else decodeStereo h.samplingFrequency.toNat s bits start

/-- The main-data start bit (42_side_info_main_data.md R413). `r0` is the reservoir's length before the append. -/
def mainDataStart (r0 : Nat) (s : SideInfo) : Nat := 8 * (r0 - s.mainDataBegin)

/-- The side information of a frame (42_side_info_main_data.md R400). -/
def frameSideInfo (h : Header) (frame : List Byte) : SideInfo :=
  parseSideInfo h.nch (Cursor.at (bytesBits (sideInfoOf h frame)) 0)

/-- Decodes a frame against the reservoir before it (42_side_info_main_data.md R410, steps 1 to 6; 60_exceptions.md
R703). -/
def decodeFrame (h : Header) (frame : List Byte) (res : List Byte) : Except Cause FrameIn :=
  let s := frameSideInfo h frame
  let whole := res ++ mainDataOf h frame
  if res.length < s.mainDataBegin then .error .reservoirUnderflow
  else match sideInfoCheck h.nch s with
    | some c => .error c
    | none =>
      if 8 * whole.length < mainDataStart res.length s + totalPart23 h.nch s then .error .part23Overrun
      else match decodeParts h s (bytesBits whole) (mainDataStart res.length s) with
        | .error e => .error e
        | .ok (c0, c1) => .ok ⟨h, s.mainDataBegin, c0, c1⟩

end Sys2Proof.Machine
end

