-- ==== Sys2Proof/Machine/Fx.lean ====
section
/-! DEFINITION. The numeric configuration FX, an opaque parameter held to the properties F1 to F5 and to ignoring the
fields that the block ignores (spec 45 R590 to R592, 30 R211 to R215, 42 R401, R419, 44 R503). Every such FX whose histories are integers
is one of these, for some value of the parameter, and each of these is such an FX (assumption log 7). -/

namespace Sys2Proof.Machine

/-- Every quantized value is 0. -/
def silentLines (l : Lines) : Bool := l.toList.all (fun v => v = 0)

/-- Every quantized value of a channel's two granules is 0. -/
def silentChan (x : ChanIn) : Bool := silentLines x.g0.lines && silentLines x.g1.lines

/-- `SYN[c]` is all zero (10_state.md R94). -/
def silentSyn (y : SynChan) : Bool := y.ovl.toList.all (fun r => r.toList.all (fun v => v = 0)) &&
  y.v.toList.all (fun v => v = 0)

/-- Samples all zero and a given history. -/
def silentOut {Y : Type} (y : Y) : FxOut Y := ⟨Vector.replicate 1152 0, y⟩

/-- `q` is `p` but for the flags that the block ignores there: mixed_block_flag unless block_type is 2
(42_side_info_main_data.md R419), and preflag where every line is short (44_requantize_stereo.md R503). -/
def SameButIgnored (p q : Part) : Prop :=
  q.scf = p.scf ∧ q.lines = p.lines ∧
    q.info = { p.info with mixedBlock := q.info.mixedBlock, preflag := q.info.preflag } ∧
    (p.info.blockType = 2 → q.info.mixedBlock = p.info.mixedBlock) ∧
    (¬ (p.info.blockType = 2 ∧ p.info.mixedBlock = false) → q.info.preflag = p.info.preflag)

/-- The properties that the spec gives every FX, for histories of any type `Y` with the zero history `zero`
(45_filterbank.md R590). F1 and the width in F4 are in the type of `F`. -/
structure FxProps {Y : Type} (zero : Y) (F : FrameIn → Y → Y → FxOut Y × FxOut Y) : Prop where
  /-- F2 with one channel. -/
  zeroOne : ∀ f y1, f.header.nch = 1 → silentChan f.ch0 = true → (F f zero y1).1 = silentOut zero
  /-- F2 with two channels. -/
  zeroTwo : ∀ f, f.header.nch = 2 → silentChan f.ch0 = true → silentChan f.ch1 = true →
    F f zero zero = (silentOut zero, silentOut zero)
  /-- F2 channel by channel, in a mode other than joint stereo. -/
  zeroEach : ∀ f y, f.header.nch = 2 → f.header.joint = false →
    (silentChan f.ch0 = true → (F f zero y).1 = silentOut zero) ∧
    (silentChan f.ch1 = true → (F f y zero).2 = silentOut zero)
  /-- F3: in a mode other than joint stereo a channel depends on its own part and history only. -/
  independent : ∀ f x y y0 y1, f.header.joint = false →
    (F { f with ch1 := x } y0 y).1 = (F f y0 y1).1 ∧
    (f.header.nch = 2 → (F { f with ch0 := x } y y1).2 = (F f y0 y1).2)
  /-- F4, SYNTH_WIDTH being 32. -/
  range : ∀ f y0 y1, ∀ v ∈ (F f y0 y1).1.samples.toList ++ (F f y0 y1).2.samples.toList,
    -(2 ^ 31) ≤ v.toInt ∧ v.toInt ≤ 2 ^ 31 - 1
  /-- F5. -/
  untouched : ∀ f y0 y1, f.header.nch = 1 → (F f y0 y1).2.syn = y1
  /-- private_bit, copyright, original and emphasis are ignored (30_encoding.md R211, R215). -/
  ignoredFields : ∀ f y0 y1 p c o e,
    F { f with header := { f.header with privateBit := p, copyright := c, original := o, emphasis := e } } y0 y1 =
      F f y0 y1
  /-- mode_extension is ignored in every mode but joint stereo (30_encoding.md R214). -/
  ignoredExtension : ∀ f y0 y1 m, f.header.mode ≠ 1#2 →
    F { f with header := { f.header with modeExtension := m } } y0 y1 = F f y0 y1
  /-- scfsi acts through the scalefactors that it selects and in no other way (42_side_info_main_data.md R401, R423). -/
  ignoredSelection : ∀ f y0 y1 a b,
    F { f with ch0 := { f.ch0 with scfsi := a }, ch1 := { f.ch1 with scfsi := b } } y0 y1 = F f y0 y1
  /-- mixed_block_flag and preflag are ignored where the rules say so (42_side_info_main_data.md R419;
  44_requantize_stereo.md R503). -/
  ignoredFlags : ∀ f y0 y1 p00 p10 p01 p11, SameButIgnored f.ch0.g0 p00 → SameButIgnored f.ch0.g1 p10 →
    SameButIgnored f.ch1.g0 p01 → SameButIgnored f.ch1.g1 p11 →
    F { f with ch0 := { f.ch0 with g0 := p00, g1 := p10 }, ch1 := { f.ch1 with g0 := p01, g1 := p11 } } y0 y1 =
      F f y0 y1

/-- The side information of a block as the numeric stages act on it: mixed_block_flag is ignored unless block_type is 2
(42_side_info_main_data.md R419), and preflag where every line is short (44_requantize_stereo.md R503). An ignored flag
is 0 here. -/
def heededInfo (g : GranuleInfo) : GranuleInfo :=
  { g with
    mixedBlock := decide (g.blockType = 2) && g.mixedBlock
    preflag := g.preflag && !(decide (g.blockType = 2) && !g.mixedBlock) }

/-- A part as the numeric stages act on it. -/
def heededPart (p : Part) : Part := { p with info := heededInfo p.info }

/-- A channel's part of a frame as the numeric stages act on it: scfsi has acted once the scalefactors are read
(42_side_info_main_data.md R401, R423; assumption log 7), and is 0 here. -/
def heededChan (x : ChanIn) : ChanIn := ⟨0, heededPart x.g0, heededPart x.g1⟩

/-- A frame as the numeric stages act on it. -/
def heededFrame (f : FrameIn) : FrameIn := ⟨f.header.heeded, f.mainDataBegin, heededChan f.ch0, heededChan f.ch1⟩

/-- FX for one channel: zero for zero input from a zero history (F2), the parameter otherwise. The 32-bit type of a
sample is F4. -/
def fxOneChannel (c : Nat) (h : Header) (mainDataBegin : Nat) (x : ChanIn) (y : SynChan) : FxOut SynChan :=
  if silentChan x && silentSyn y then silentOut zeroSyn else Config.fxChannel c h.heeded mainDataBegin (heededChan x) y

/-- FX for a joint-stereo frame: zero for zero input from zero histories (F2), the parameter otherwise. -/
def fxBothChannels (f : FrameIn) (y0 y1 : SynChan) : FxOut SynChan × FxOut SynChan :=
  if silentChan f.ch0 && silentChan f.ch1 && silentSyn y0 && silentSyn y1 then (silentOut zeroSyn, silentOut zeroSyn)
  else Config.fxJoint (heededFrame f) y0 y1

/-- `FX(frame_in, SYN_in)` (45_filterbank.md R590). In modes other than joint stereo each channel goes by itself (F3).
In single-channel mode channel 1 has no samples and keeps its history (F5). -/
def fxFrame (f : FrameIn) (y0 y1 : SynChan) : FxOut SynChan × FxOut SynChan :=
  if f.header.nch = 1 then
    (fxOneChannel 0 f.header f.mainDataBegin f.ch0 y0, silentOut y1)
  else if f.header.joint then fxBothChannels f y0 y1
  else (fxOneChannel 0 f.header f.mainDataBegin f.ch0 y0, fxOneChannel 1 f.header f.mainDataBegin f.ch1 y1)

end Sys2Proof.Machine
end

