-- ==== Sys2Proof/Machine/Pcm.lean ====
section
/-! DEFINITION. Conversion of synthesized samples to 16-bit PCM, channel layout and interleave (spec 46). -/

namespace Sys2Proof.Machine

/-- `clamp(v, lo, hi)` (00_scope.md R12). -/
def clampInt (v lo hi : Int) : Int := if v < lo then lo else if hi < v then hi else v

/-- `asr(v, s)`: the floor of `v / 2^s` (00_scope.md R12). -/
def asrInt (v : Int) (s : Nat) : Int := v / (2 ^ s : Nat)

/-- The PCM value of a synthesized sample, exact: half an LSB added, truncated by the arithmetic shift, saturated to 16
bits (46_pcm_output.md R600). -/
def pcmValue (s : Int) : Int :=
  clampInt (asrInt (s + (2 ^ (Config.fracBits - 16) : Nat)) (Config.fracBits - 15)) (-32768) 32767

/-- The 16-bit PCM entry of a sample (46_pcm_output.md R600). -/
def pcmOfSample (s : Word) : Pcm := BitVec.ofInt 16 (pcmValue s.toInt)

/-- PCM_CHANNELS of a delivered frame (46_pcm_output.md R606; 47_session_commands.md R673). -/
def pcmChannelCount (nch : Nat) (forceStereo : Bool) : Nat := if nch = 1 && !forceStereo then 1 else 2

/-- The samples of output channel `c` (46_pcm_output.md R606): channel `c` of the frame, and a single channel twice. -/
def outputChannel (nch : Nat) (out : FxOut SynChan × FxOut SynChan) (c : Nat) : Vector Word 1152 :=
  if nch = 1 ∨ c = 0 then out.1.samples else out.2.samples

/-- PCM_MEM after a delivery: `PCM_MEM[C*n + c]` is sample `n` of output channel `c`, and the entries above keep what
they held (46_pcm_output.md R607). `chans` is `C`. -/
def interleave (nch chans : Nat) (out : FxOut SynChan × FxOut SynChan) (old : Vector Pcm 2304) : Vector Pcm 2304 :=
  tabulate 2304 fun k =>
    if k < chans * 1152 then pcmOfSample ((outputChannel nch out (k % chans)).toList.getD (k / chans) 0)
    else old.toList.getD k 0

end Sys2Proof.Machine
end

