-- ==== Sys2Proof/Machine/Ops.lean ====
section
/-! DEFINITION. The named operations over the state: the input buffer's bytes, raising a host error (the one shared
operation for an event that the spec reports through ERR; the block takes no trap, spec 60 R701), acceptance,
completion, the refill request, the implicit close, reset, and reading and writing registers and PCM. -/

namespace Sys2Proof.Machine

/-- The byte at an address; an unlisted address reads 0 (10_state.md R90; assumption log 2). -/
def Mem.read : Mem → Nat → Byte
  | [], _          => 0#8
  | (k, v) :: m, a => if a = k then v else Mem.read m a

/-- Writes a byte, keeping the canonical form: a 0 takes the entry out. -/
def Mem.write : Mem → Nat → Byte → Mem
  | [], a, b          => if b = 0#8 then [] else [(a, b)]
  | (k, v) :: m, a, b =>
    if a < k then (if b = 0#8 then (k, v) :: m else (a, b) :: (k, v) :: m)
    else if a = k then (if b = 0#8 then m else (a, b) :: m)
    else (k, v) :: Mem.write m a b

/-- The canonical form: addresses strictly rising, no entry equal to what an unlisted address reads as. -/
def Mem.wf : Mem → Bool
  | []          => true
  | (k, v) :: m => v ≠ 0#8 && m.all (fun c => k < c.1) && Mem.wf m

/-- The move of a refill (40_bitstream_reader.md R303): bytes `pos .. avail-1` to the front, in order; the bytes from
`avail - pos` on stay as they are. -/
def Mem.moveDown (m : Mem) (pos avail : Nat) : Mem :=
  (m.filter (fun c => pos ≤ c.1 && c.1 < avail)).map (fun c => (c.1 - pos, c.2)) ++
    m.filter (fun c => avail - pos ≤ c.1)

/-- An address of the guard region, `IBUF[IBUF_CAP .. IBUF_CAP + GUARD_BYTES - 1]` (10_state.md R90;
40_bitstream_reader.md R309). -/
def inGuard (s : State) (a : Nat) : Prop := s.ibufCap ≤ a ∧ a < s.ibufCap + Config.guardBytes

/-- `n` bytes from an address on. -/
def Mem.slice (m : Mem) (start n : Nat) : List Byte := (List.range n).map (fun i => m.read (start + i))

/-- `raise HostError(code)` (00_scope.md R15; 60_exceptions.md R705): ERR and nothing else. -/
def raiseHostError (e : HostErr) (s : State) : State := { s with err := e }

/-- A command's acceptance (47_session_commands.md R681 step 3): ERR to NONE, DONE to 0. -/
def accept (s : State) : State := { s with err := .none, done := false }

/-- `complete()` (47_session_commands.md R680). -/
def complete (s : State) : State :=
  { s with engine := .idle, pending := .none, done := true, refillMax := 0, refillCount := 0 }

/-- The acceptance table (47_session_commands.md R682): the error a legal command raises in a state, or none when it
is accepted. -/
def rejection (i : Instr) (e : Engine) (n : Session) : Option HostErr :=
  match i with
  | .nop | .openFile | .close => if e = .idle then none else some .busy
  | .pull =>
    if e = .idle then (if n = .uninitialized then some .noSession else none) else some .busy
  | .refillDone | .refillDoneErr => if e = .needData then none else some .protocol
  | .reset | .irqAck => none

/-- A legal command written to CMD (47_session_commands.md R681 steps 2 and 3): rejected with an ERR code, or run. -/
def issue (i : Instr) (run : State → State) (s : State) : State :=
  match rejection i s.engine s.session with
  | some e => raiseHostError e s
  | none   => run s

/-- What OPEN and CLOSE share (47_session_commands.md R660, R665): the session's resources given up. -/
def dropSession (s : State) : State :=
  { s with
    avail := 0, pos := 0, eof := false, refillErr := false, res := [], lock := none, syn0 := zeroSyn, syn1 := zeroSyn,
    pcmValid := false, eos := false, pcmLength := 0, pcmChannels := 0,
    header := 0, sampleRate := 0, bitrate := 0, srcChannels := 0 }

/-- The counters and diagnostics of a new session (47_session_commands.md R660). -/
def clearCounters (s : State) : State :=
  { s with frames := 0, resyncs := 0, dropped := 0, diagCause := .none, isSnap := zeroSnap }

/-- Reset (70_reset_and_hazards.md R750; 10_state.md R120): every piece of the block's state to its reset value. The
parameter IBUF_CAP and the model's own fields are no state of the block and stay. -/
def resetBlock (s : State) : State :=
  { State.reset with
    ibufCap := s.ibufCap, inputs := s.inputs, busData := s.busData, busError := s.busError, epoch := s.epoch }

/-- The value of PCM entry `k` that a host reads (20_memory.md R153, R172; 70_reset_and_hazards.md R761): defined while
PCM_VALID is 1 and `k` is in the valid range, a free value otherwise. DESIGN CHOICE (assumption log 1): the free value
depends on `epoch` and `k` alone, so it is the same in two runs of equal `epoch` whose hidden state differs. -/
def pcmEntry (s : State) (k : Nat) : Pcm :=
  if s.pcmValid && k < s.pcmLength.toNat * s.pcmChannels.toNat then s.pcmMem.toList.getD k 0
  else Config.freePcm s.epoch k

/-- Two entries in a bus word (20_memory.md R154): entry `2k` and entry `2k+1`. -/
def packPcm (e : Endian) (first second : Pcm) : Word :=
  match e with
  | .little => second ++ first
  | .big    => first ++ second

/-- `IS_SNAP[gr][ch][line]` (10_state.md R96). -/
def snapLine (n : Snapshot) (gr ch line : Nat) : Int :=
  ((n.toList.getD gr (Vector.replicate 2 (Vector.replicate 576 0))).toList.getD ch (Vector.replicate 576 0)).toList.getD
    line 0

/-- DBG_DATA (10_state.md R79). -/
def dbgData (s : State) : Word :=
  if dbgLine s.dbgSel < 576 then
    BitVec.ofInt 32 (snapLine s.isSnap (dbgGr s.dbgSel) (dbgCh s.dbgSel) (dbgLine s.dbgSel))
  else 0

/-- The value a register reads (10_state.md R55 to R79). -/
def readReg (s : State) : Reg → Word
  | .id          => 0x4D503301#32
  | .ctrl        => s.ctrl
  | .cmd         => 0
  | .status      => statusWord s
  | .refillMax   => BitVec.ofNat 32 s.refillMax
  | .refillCount => BitVec.ofNat 32 s.refillCount
  | .inData      => 0
  | .header      => s.header
  | .sampleRate  => s.sampleRate
  | .bitrate     => s.bitrate
  | .srcChannels => s.srcChannels
  | .pcmLength   => s.pcmLength
  | .pcmChannels => s.pcmChannels
  | .frames      => s.frames
  | .resyncs     => s.resyncs
  | .dropped     => s.dropped
  | .diagCause   => s.diagCause.code.setWidth 32
  | .bufLevel    => BitVec.ofNat 32 (s.avail - s.pos)
  | .dbgSel      => s.dbgSel
  | .dbgData     => dbgData s

/-- The block's answer to a host access (20_memory.md R158; assumption log 6). -/
def respond (error : Bool) (data : Word) (s : State) : State := { s with busError := error, busData := data }

/-- The free values of PCM_MEM may change from here on (assumption log 1). -/
def tick (s : State) : State := { s with epoch := s.epoch + 1 }

end Sys2Proof.Machine
end

