-- ==== Sys2Proof/Machine/Reader.lean ====
section
/-! DEFINITION. The Bitstream Reader: availability, the fill and refill requests, IN_DATA and the response's completion
(spec 40). -/

namespace Sys2Proof.Machine

/-- `ensure(n)` (40_bitstream_reader.md R300). -/
def ensure (s : State) (n : Nat) : Bool := n ≤ s.avail - s.pos

/-- The initial fill (40_bitstream_reader.md R302). -/
def initialFill (s : State) : State :=
  { s with
    avail := 0, pos := 0, eof := false, refillErr := false, refillMax := s.ibufCap, refillCount := 0,
    engine := .needData, pending := .opening }

/-- The refill, the handling of BufferExhausted (40_bitstream_reader.md R303). -/
def refillRequest (s : State) : State :=
  { s with
    ibuf := s.ibuf.moveDown s.pos s.avail, avail := s.avail - s.pos, pos := 0,
    refillMax := s.ibufCap - (s.avail - s.pos), refillCount := 0, refillErr := false, engine := .needData }

/-- An IN_DATA write (40_bitstream_reader.md R304; the order of the checks 60_exceptions.md R707). -/
def writeInData (v : Word) (s : State) : State :=
  if s.engine ≠ .needData then raiseHostError .protocol s
  else if s.refillCount = s.refillMax then raiseHostError .overflow s
  else { s with ibuf := s.ibuf.write (s.avail + s.refillCount) (inDataByte v), refillCount := s.refillCount + 1 }

/-- Response completion, the data half of REFILL_DONE (40_bitstream_reader.md R305). -/
def completeResponse (readError : Bool) (s : State) : State :=
  if readError then
    if s.pending = .opening then
      raiseHostError .fileError { s with refillErr := true, refillMax := 0, refillCount := 0 }
    else { s with refillErr := true, eof := true, refillMax := 0, refillCount := 0 }
  else
    { s with
      refillErr := false, avail := s.avail + s.refillCount, eof := s.eof || s.refillCount = 0, refillMax := 0,
      refillCount := 0 }

/-- The header word at the cursor (41_frame_header.md R351). -/
def headerWordAt (s : State) : Word :=
  wordOfBytes (s.ibuf.read s.pos) (s.ibuf.read (s.pos + 1)) (s.ibuf.read (s.pos + 2)) (s.ibuf.read (s.pos + 3))

end Sys2Proof.Machine
end

