-- ==== Sys2Proof/Machine/Engine.lean ====
section
/-! DEFINITION. The engine's step: the header stage, the drop, the delivery, the end of stream and one iteration of the
PULL loop (spec 41 R350 to R361, 42 R418, 47 R672 to R674). -/

namespace Sys2Proof.Machine

/-- What the header stage of an iteration comes to (41_frame_header.md R350; 60_exceptions.md R700). -/
inductive HeaderOutcome where
  | bufferExhausted
  | endOfStream
  | syncSkip
  | fatal (c : FatalCause)
  | frame (H : Word)
deriving DecidableEq, Repr

/-- `ensure` failed: a refill, or the end of the stream when end of file was seen (40_bitstream_reader.md R300, R307). -/
def shortOfInput (s : State) : HeaderOutcome := if s.eof then .endOfStream else .bufferExhausted

/-- The format lock's check (41_frame_header.md R358). -/
def lockBroken (lock : Option Lock) (h : Header) : Bool :=
  match lock with
  | none   => false
  | some l => l ≠ ⟨h.fs, h.nch⟩

/-- The header stage, in the order of 41_frame_header.md R350. -/
def headerStage (s : State) : HeaderOutcome :=
  if ensure s 4 = false then shortOfInput s
  else
    let H := headerWordAt s
    let h := headerOfWord H
    if syncOk h = false then .syncSkip
    else if headerValid h = false then .syncSkip
    else if freeFormat h then .fatal .freeFormat
    else if lockBroken s.lock h then .fatal .formatChange
    else if ensure s h.frameLength = false then shortOfInput s
    else .frame H

/-- The recoverable sync skip (41_frame_header.md R354). -/
def syncSkip (s : State) : State := { s with pos := s.pos + 1, resyncs := s.resyncs + 1, diagCause := .syncSkip }

/-- The recoverable drop of a frame of `len` bytes (42_side_info_main_data.md R418). `res` is the reservoir after the
append of R412. -/
def dropFrame (c : Cause) (len : Nat) (res : List Byte) (s : State) : State :=
  { s with diagCause := c, dropped := s.dropped + 1, res := trimRes res, pos := s.pos + len }

/-- The snapshot of a frame's quantized values (43_huffman.md R466). -/
def snapshotOf (f : FrameIn) : Snapshot :=
  #v[#v[f.ch0.g0.lines, f.ch1.g0.lines], #v[f.ch0.g1.lines, f.ch1.g1.lines]]

/-- Delivery of a decoded frame with header word `H` (47_session_commands.md R673). -/
def deliver (H : Word) (f : FrameIn) (res : List Byte) (s : State) : State :=
  let h := headerOfWord H
  let out := fxFrame f s.syn0 s.syn1
  let chans := pcmChannelCount h.nch (forceStereo s)
  complete { s with
    syn0 := out.1.syn, syn1 := out.2.syn,
    pcmChannels := BitVec.ofNat 32 chans, pcmMem := interleave h.nch chans out s.pcmMem,
    pcmLength := 1152, pcmValid := true,
    header := H, sampleRate := BitVec.ofNat 32 h.fs, bitrate := BitVec.ofNat 32 h.kbps,
    srcChannels := BitVec.ofNat 32 h.nch,
    lock := (match s.lock with | none => some ⟨h.fs, h.nch⟩ | some l => some l),
    frames := s.frames + 1, isSnap := snapshotOf f, res := trimRes res, pos := s.pos + h.frameLength }

/-- The end of a PULL with EndOfStream, on exhaustion and on Fatal alike (47_session_commands.md R674; 60_exceptions.md
R706). DESIGN CHOICE (assumption log 3): the stored entries of PCM_MEM, unspecified here, stay as they are. -/
def endOfStream (s : State) : State := complete { s with session := .exhausted, eos := true, pcmValid := false }

/-- The bytes of the candidate frame, `IBUF[pos .. pos+L-1]` (41_frame_header.md R359). -/
def frameBytes (s : State) (h : Header) : List Byte := s.ibuf.slice s.pos h.frameLength

/-- The decoding of an available frame, which ends in a drop or a delivery (42_side_info_main_data.md R410). -/
def processFrame (H : Word) (s : State) : State :=
  let h := headerOfWord H
  let frame := frameBytes s h
  let res := s.res ++ mainDataOf h frame
  match decodeFrame h frame s.res with
  | .error c => dropFrame c h.frameLength res s
  | .ok f    => deliver H f res s

/-- One iteration of the PULL loop (47_session_commands.md R672). DESIGN CHOICE (assumption log 3): until the delivery the
stored entries of PCM_MEM, which the spec leaves unspecified during a PULL, stay as they are. -/
def iteration (s : State) : State :=
  match headerStage s with
  | .bufferExhausted => refillRequest s
  | .endOfStream     => endOfStream s
  | .syncSkip        => syncSkip s
  | .fatal _         => endOfStream s
  | .frame H         => processFrame H s

/-- An engine step: one iteration while ENGINE is BUSY and PENDING is PULL (47_session_commands.md R672); otherwise the
engine takes no step (10_state.md R51). -/
def engineStep (s : State) : State :=
  if s.engine = .busy ∧ s.pending = .pulling then iteration (tick s) else s

end Sys2Proof.Machine
end

