-- ==== Sys2Proof/Machine/Commands.lean ====
section
/-! DEFINITION. The meanings of the eight commands (spec 47). Each is the acceptance of R681 and R682 around the effect
of its own rule. -/

namespace Sys2Proof.Machine

/-- What a meaning answers. -/
abbrev Result := Host.Outcome State Fault Refusal

/-- NOP's effect (47_session_commands.md R655). -/
def nopEffect (s : State) : State := complete (accept s)

/-- OPEN's effect (47_session_commands.md R660). DESIGN CHOICE (assumption logs 2 and 3): the contents of IBUF and PCM_MEM,
which 10_state.md R120 leaves unspecified here, stay as they are; no rule reads them. -/
def openEffect (s : State) : State := initialFill (clearCounters (dropSession (accept s)))

/-- CLOSE's effect (47_session_commands.md R665). DESIGN CHOICE (assumption logs 2 and 3): the contents of IBUF and
PCM_MEM, which 10_state.md R120 leaves unspecified here, stay as they are; no rule reads them. -/
def closeEffect (s : State) : State := complete { dropSession (accept s) with session := .uninitialized }

/-- PULL's effect (47_session_commands.md R670). DESIGN CHOICE (assumption log 3): the stored entries of PCM_MEM, which the
spec leaves unspecified from here to the delivery and which no read reaches there, stay as they are. -/
def pullEffect (s : State) : State :=
  let t := { accept s with pcmValid := false, pcmLength := 0, pcmChannels := 0, eos := false }
  if s.session = .exhausted then complete { t with eos := true }
  else { t with engine := .busy, pending := .pulling }

/-- OPEN's completion (47_session_commands.md R661). -/
def completeOpen (s : State) : State :=
  if s.refillErr then
    complete { s with session := .uninitialized, avail := 0, pos := 0, eof := false, err := .fileError }
  else complete { s with session := .streaming }

/-- REFILL_DONE's effect (47_session_commands.md R675), `readError` being READ_ERROR. -/
def refillEffect (readError : Bool) (s : State) : State :=
  let t := completeResponse readError (accept s)
  if s.pending = .opening then completeOpen t else { t with engine := .busy }

/-- NOP (47_session_commands.md R655). -/
def execNop (s : State) : Result := .next (issue .nop nopEffect s)

/-- RESET (47_session_commands.md R656): accepted in every state. -/
def execReset (s : State) : Result := .next (issue .reset resetBlock s)

/-- OPEN (47_session_commands.md R660). -/
def execOpenFile (s : State) : Result := .next (issue .openFile openEffect s)

/-- PULL (47_session_commands.md R670). -/
def execPull (s : State) : Result := .next (issue .pull pullEffect s)

/-- CLOSE (47_session_commands.md R665). -/
def execClose (s : State) : Result := .next (issue .close closeEffect s)

/-- REFILL_DONE with READ_ERROR = 0 (47_session_commands.md R675). -/
def execRefillDone (s : State) : Result := .next (issue .refillDone (refillEffect false) s)

/-- REFILL_DONE with READ_ERROR = 1 (47_session_commands.md R675). -/
def execRefillDoneErr (s : State) : Result := .next (issue .refillDoneErr (refillEffect true) s)

/-- IRQ_ACK (47_session_commands.md R678): accepted in every state, DONE and ERR cleared and nothing else. -/
def execIrqAck (s : State) : Result := .next (issue .irqAck accept s)

end Sys2Proof.Machine
end

