-- ==== Sys2Proof/Machine/Dispatch.lean ====
section
/-! DEFINITION. The dispatch of a legal command to its meaning, one arm for each row of opcode_table.json. -/

namespace Sys2Proof.Machine
open Sys2Proof

def exec (i : Instr) (s : State) : Host.Outcome State Fault Refusal :=
  match i with
  | .nop => Sys2Proof.Machine.execNop s
  | .reset => Sys2Proof.Machine.execReset s
  | .openFile => Sys2Proof.Machine.execOpenFile s
  | .pull => Sys2Proof.Machine.execPull s
  | .close => Sys2Proof.Machine.execClose s
  | .refillDone => Sys2Proof.Machine.execRefillDone s
  | .refillDoneErr => Sys2Proof.Machine.execRefillDoneErr s
  | .irqAck => Sys2Proof.Machine.execIrqAck s

end Sys2Proof.Machine
end

