-- ==== Sys2Proof/Machine/Access.lean ====
section
/-! DEFINITION. Host accesses of the window: reads, and writes with the commands they issue (spec 20, 47 R681). -/

namespace Sys2Proof.Machine

/-- A write of CMD (47_session_commands.md R681): an illegal word raises ILLEGAL_CMD, a legal one is executed. -/
def writeCmd (w : Word) (s : State) : Result :=
  match decode w with
  | .error _ => .next (raiseHostError .illegalCmd s)
  | .ok i    => exec i s

/-- An aligned 4-byte write of a register (20_memory.md R160; 10_state.md R55): a read-only one ignores it. -/
def writeReg (r : Reg) (v : Word) (s : State) : Result :=
  match r with
  | .cmd    => writeCmd v s
  | .inData => .next (writeInData v s)
  | .ctrl   => .next { s with ctrl := v &&& ctrlMask }
  | .dbgSel => .next { s with dbgSel := v &&& dbgSelMask }
  | _       => .next s

/-- `MemRead(off, len)` (20_memory.md R152 to R158): the data and the bus error go to the bus, nothing else changes.
DESIGN CHOICE (assumption log 22): the 16-bit value of a 2-byte PCM read is in bits 15:0 of the bus word, and bits 31:16,
of which the spec says nothing, are 0. -/
def hostRead (off len : Nat) (s : State) : Result :=
  match targetOf off len with
  | .reg r    => .next (respond false (readReg s r) s)
  | .pcm2 k   => .next (respond false ((pcmEntry s k).setWidth 32) s)
  | .pcm4 k   => .next (respond false (packPcm Config.hostEndian (pcmEntry s (2 * k)) (pcmEntry s (2 * k + 1))) s)
  | .unmapped => .next (respond false 0 s)
  | .busError => .next (respond true 0 s)
  | .otherPcm =>
    .next (respond (Config.freeBusError off len)
      (if Config.freeBusError off len then 0 else Config.freeBusData s.epoch off len) s)
  | .otherGap => .next (respond (Config.freeBusError off len) 0 s)
  | .outside  => .fault .outsideWindow

/-- `MemWrite(off, len, v)` (20_memory.md R152 to R158): PCM_MEM and unmapped offsets ignore it, a bus error changes
nothing. -/
def hostWrite (off len : Nat) (v : Word) (s : State) : Result :=
  match targetOf off len with
  | .reg r                       => writeReg r v (respond false 0 (tick s))
  | .pcm2 _ | .pcm4 _ | .unmapped => .next (respond false 0 (tick s))
  | .busError                    => .next (respond true 0 (tick s))
  | .otherPcm | .otherGap        => .next (respond (Config.freeBusError off len) 0 (tick s))
  | .outside                     => .fault .outsideWindow

/-- What happens next at the block's boundary. -/
def runEvent (e : Event) (s : State) : Result :=
  match e with
  | .read off len    => hostRead off len s
  | .write off len v => hostWrite off len v s
  | .engine          => .next (engineStep s)
  | .reset           => .next (resetBlock (tick s))

/-- The next step of the whole (10_state.md R51; 20_memory.md R170): the first of the inputs; with no input left, an
engine step where one is enabled (70_reset_and_hazards.md R770), and otherwise the block waits. -/
def nextStep (s : State) : Result :=
  match s.inputs with
  | []      => .next (engineStep s)
  | e :: es => runEvent e { s with inputs := es }

end Sys2Proof.Machine
end

