-- ==== Sys2Proof/Machine/Requantize.lean ====
section
/-! DEFINITION. The reference of requantisation and joint-stereo processing (spec 44), over any commutative ring with
named coefficients: every power, root and trigonometric value is a coefficient. `Machine/Reference.lean` gives the
coefficients their real values. -/

namespace Sys2Proof.Machine

/-- The coefficients of the reference (44_requantize_stereo.md, 45_filterbank.md). -/
structure Coefs (R : Type) where
  /-- `pow43(v)` (R501). -/
  pow43 : Int → R
  /-- `2^(e/4)` for an integer `e` (R502, R503). -/
  quarterPow : Int → R
  /-- `1/sqrt(2)` (R520). -/
  invSqrt2 : R
  /-- `kL` by is_pos (R523). -/
  kL : Nat → R
  /-- `kR` by is_pos (R523). -/
  kR : Nat → R
  /-- `cs[i]` (R553). -/
  cs : Nat → R
  /-- `ca[i]` (R553). -/
  ca : Nat → R
  /-- `cos(pi/72 * (2i+19) * (2k+1))` (R554). -/
  longCos : Nat → Nat → R
  /-- `win[t][i]` (R555). -/
  win : Nat → Nat → R
  /-- `cos(pi/24 * (2i+7) * (2k+1))` (R556). -/
  shortCos : Nat → Nat → R
  /-- `win_s[i]` (R555). -/
  winShort : Nat → R
  /-- `N[i][k] = cos((16+i) * (2k+1) * pi/64)` (R560). -/
  polyCos : Nat → Nat → R
  /-- `D[i]`, the parameter SYNTH_D (R584). -/
  synthD : Nat → R

/-- `pretab[0..21]` (44_requantize_stereo.md R502). -/
def pretab : List Nat := [0, 0, 0, 0, 0, 0, 0, 0, 0, 0, 0, 1, 1, 1, 1, 2, 2, 3, 3, 3, 2, 0]

/-- Four times `mult` (44_requantize_stereo.md R501): 2 or 4 quarters of an exponent. -/
def multQuarters (g : GranuleInfo) : Int := if g.scalefacScale then 4 else 2

/-- `scalefac_l[s]` of a part. -/
def Scalefac.longAt (f : Scalefac) (s : Nat) : Nat := f.long.toList.getD s 0

/-- `scalefac_s[s][w]` of a part. -/
def Scalefac.shortAt (f : Scalefac) (s w : Nat) : Nat := f.short.toList.getD (3 * s + w) 0

/-- `subblock_gain[w]`. -/
def subblockGain (g : GranuleInfo) (w : Nat) : Nat :=
  if w = 0 then g.subblockGain0 else if w = 1 then g.subblockGain1 else g.subblockGain2

/-- Four times the exponent of 2 in R502 and R503, at the place of a line. -/
def gainQuarters (g : GranuleInfo) (f : Scalefac) : LinePlace → Int
  | .long s =>
    (g.globalGain : Int) - 210 -
      multQuarters g * ((Scalefac.longAt f s : Int) + (if g.preflag then (pretab.getD s 0 : Int) else 0))
  | .short s w _ =>
    (g.globalGain : Int) - 210 - 8 * (subblockGain g w : Int) - multQuarters g * (Scalefac.shortAt f s w : Int)

/-- `xr[i]` (44_requantize_stereo.md R502, R503). -/
def requantize {R : Type} [CommRing R] (C : Coefs R) (freq : Nat) (p : Part) (i : Nat) : R :=
  C.pow43 (p.lines.toList.getD i 0) *
    C.quarterPow (gainQuarters p.info p.scf (linePlace freq p.info i))

/-- The bound band of a long layout (44_requantize_stereo.md R522): the smallest `s` in 0..22 with `sfbL[s] >= nz`. -/
def longBoundBand (freq nz : Nat) : Nat := ((List.range 23).find? (fun s => nz ≤ sfbL freq s)).getD 22

/-- `nz_w`: one more than the highest frequency with a nonzero channel-1 value in window `w` (44_requantize_stereo.md
R522). The frequency is counted within the window. -/
def windowExtent (freq : Nat) (p : Part) (w : Nat) : Nat :=
  ((List.range 576).map (fun i =>
    match linePlace freq p.info i with
    | .short s w' f => if w' = w ∧ p.lines.toList.getD i 0 ≠ 0 then sfbS freq s + f + 1 else 0
    | .long _ => 0)).foldl max 0

/-- The bound band of window `w` (44_requantize_stereo.md R522): the smallest `s` in 0..13 with `sfbS[s] >= nz_w`, at
least 3 in a mixed layout. -/
def shortBoundBand (freq : Nat) (p : Part) (w : Nat) : Nat :=
  let b := ((List.range 14).find? (fun s => windowExtent freq p w ≤ sfbS freq s)).getD 13
  if p.info.mixedBlock then max b 3 else b

/-- The position of a band of channel 1 (44_requantize_stereo.md R523): its scalefactor, and for the top band that of
the band below it. -/
def intensityPosition (f : Scalefac) : LinePlace → Nat
  | .long s      => Scalefac.longAt f (if s = 21 then 20 else s)
  | .short s w _ => Scalefac.shortAt f (if s = 12 then 11 else s) w

/-- The intensity position of line `i` if it is an intensity line (44_requantize_stereo.md R521 to R523), by the layout
of channel 1's part `p`. In a mixed layout lines 0 to 35 are none. -/
def intensityLine (freq : Nat) (p : Part) (i : Nat) : Option Nat :=
  let pos := intensityPosition p.scf (linePlace freq p.info i)
  let inBand :=
    match linePlace freq p.info i with
    | .long s      => !(p.info.blockType = 2) && longBoundBand freq (nonzeroExtent p.lines) ≤ s
    | .short s w _ => decide (shortBoundBand freq p w ≤ s)
  if inBand && pos < 7 then some pos else none

/-- `xr'[gr][0][i]` and `xr'[gr][1][i]` of a joint-stereo frame from the values before the stage
(44_requantize_stereo.md R520, R523, R525). -/
def stereoLine {R : Type} [CommRing R] (C : Coefs R) (h : Header) (p1 : Part) (x0 x1 : R) (i : Nat) : R × R :=
  match (if h.intensityStereo then intensityLine h.samplingFrequency.toNat p1 i else none) with
  | some pos => (x0 * C.kL pos, x0 * C.kR pos)
  | none =>
    if h.msStereo then ((x0 + x1) * C.invSqrt2, (x0 - x1) * C.invSqrt2) else (x0, x1)

/-- `xr'[gr][ch][i]` of a frame (44_requantize_stereo.md R500, R505, R524). The part of channel 1 is not read in a
single-channel frame. -/
def spectrum {R : Type} [CommRing R] (C : Coefs R) (h : Header) (p0 p1 : Part) (ch i : Nat) : R :=
  let x0 := requantize C h.samplingFrequency.toNat p0 i
  if h.nch = 1 then x0
  else
    let r := stereoLine C h p1 x0 (requantize C h.samplingFrequency.toNat p1 i) i
    if ch = 0 then r.1 else r.2

end Sys2Proof.Machine
end

