-- ==== Sys2Proof/Machine/Filterbank.lean ====
section
/-! DEFINITION. The reference of the hybrid filterbank (spec 45 R550 to R560), over any commutative ring with named
coefficients. -/

namespace Sys2Proof.Machine

/-- `SYN[c]` of the reference (10_state.md R94). -/
structure RefSyn (R : Type) where
  ovl : Nat → Nat → R
  v   : Nat → R

/-- The zero history. -/
def RefSyn.zero {R : Type} [CommRing R] : RefSyn R := ⟨fun _ _ => 0, fun _ => 0⟩

/-- A subband of the short kind (45_filterbank.md R550). -/
def shortKind (g : GranuleInfo) (sb : Nat) : Bool := g.blockType = 2 && (!g.mixedBlock || 2 ≤ sb)

/-- The window type of a subband of the long kind (45_filterbank.md R550). -/
def windowType (g : GranuleInfo) : Nat := if g.blockType = 2 then 0 else g.blockType

/-- Where the value of line `i` comes from in the reorder (45_filterbank.md R551): line `3*sfbS[s] + 3*j + w` takes
that of `3*sfbS[s] + w*wS[s] + j`. -/
def reorderSource (freq : Nat) (g : GranuleInfo) (i : Nat) : Nat :=
  match linePlace freq g i with
  | .long _ => i
  | .short s _ _ =>
    let d := i - 3 * sfbS freq s
    3 * sfbS freq s + (d % 3) * shortWidth freq s + d / 3

/-- The reorder (45_filterbank.md R551). -/
def reorder {R : Type} (freq : Nat) (g : GranuleInfo) (x : Nat → R) (i : Nat) : R := x (reorderSource freq g i)

/-- The highest subband boundary with butterflies (45_filterbank.md R552). -/
def aliasLimit (g : GranuleInfo) : Nat := if g.blockType = 2 then (if g.mixedBlock then 1 else 0) else 31

/-- Alias reduction (45_filterbank.md R552): line `18*sb + i` and line `18*sb - 1 - i` of each boundary, from the values
before this step. -/
def aliasReduce {R : Type} [CommRing R] (C : Coefs R) (g : GranuleInfo) (x : Nat → R) (n : Nat) : R :=
  let sb := n / 18
  let k := n % 18
  if k < 8 ∧ 1 ≤ sb ∧ sb ≤ aliasLimit g then x n * C.cs k + x (18 * sb - 1 - k) * C.ca k
  else if 10 ≤ k ∧ sb + 1 ≤ aliasLimit g then x n * C.cs (17 - k) - x (18 * (sb + 1) + (17 - k)) * C.ca (17 - k)
  else x n

/-- The long IMDCT, windowed (45_filterbank.md R554). -/
def longImdct {R : Type} [CommRing R] (C : Coefs R) (t : Nat) (x : Nat → R) (i : Nat) : R :=
  (∑ k ∈ Finset.range 18, x k * C.longCos i k) * C.win t i

/-- `y_w[i] * win_s[i]` of the short IMDCT, `X_w[k]` being `x (3k + w)` (45_filterbank.md R556, R551). -/
def shortImdctWindow {R : Type} [CommRing R] (C : Coefs R) (x : Nat → R) (w i : Nat) : R :=
  (∑ k ∈ Finset.range 6, x (3 * k + w) * C.shortCos i k) * C.winShort i

/-- The short IMDCT's `z[n]` (45_filterbank.md R556): window `w` lies at `6 + 6*w .. 17 + 6*w`. -/
def shortImdct {R : Type} [CommRing R] (C : Coefs R) (x : Nat → R) (n : Nat) : R :=
  ∑ w ∈ Finset.range 3,
    if 6 + 6 * w ≤ n ∧ n < 18 + 6 * w then shortImdctWindow C x w (n - (6 + 6 * w)) else 0

/-- `z[0..35]` of subband `sb` (45_filterbank.md R554, R556). -/
def subbandBlock {R : Type} [CommRing R] (C : Coefs R) (g : GranuleInfo) (x : Nat → R) (sb n : Nat) : R :=
  let lines := fun k => x (18 * sb + k)
  if shortKind g sb then shortImdct C lines n else longImdct C (windowType g) lines n

/-- Overlap-add and frequency inversion (45_filterbank.md R557, R558): `sub[sb][i]`. -/
def subbandSample {R : Type} [CommRing R] (C : Coefs R) (g : GranuleInfo) (y : RefSyn R) (x : Nat → R) (sb i : Nat) :
    R :=
  let v := subbandBlock C g x sb i + y.ovl sb i
  if sb % 2 = 1 ∧ i % 2 = 1 then -v else v

/-- The history `V` after one time slot with samples `S` (45_filterbank.md R560). -/
def polyShift {R : Type} [CommRing R] (C : Coefs R) (S : Nat → R) (v : Nat → R) (i : Nat) : R :=
  if i < 64 then ∑ k ∈ Finset.range 32, C.polyCos i k * S k else v (i - 64)

/-- `V` after the first `t` time slots of a granule (45_filterbank.md R560). -/
def polyHistory {R : Type} [CommRing R] (C : Coefs R) (sub : Nat → Nat → R) (v : Nat → R) : Nat → Nat → R
  | 0     => v
  | t + 1 => polyShift C (fun k => sub k t) (polyHistory C sub v t)

/-- `U[m]` (45_filterbank.md R560). -/
def polyU {R : Type} (v : Nat → R) (m : Nat) : R :=
  if m % 64 < 32 then v (128 * (m / 64) + m % 64) else v (128 * (m / 64) + 96 + (m % 64 - 32))

/-- Output sample `j` of a time slot from the history after its shift (45_filterbank.md R560). -/
def polyOut {R : Type} [CommRing R] (C : Coefs R) (v : Nat → R) (j : Nat) : R :=
  ∑ i ∈ Finset.range 16, polyU v (j + 32 * i) * C.synthD (j + 32 * i)

/-- The lines after reorder and alias reduction (45_filterbank.md R551, R552). -/
def granuleLines {R : Type} [CommRing R] (C : Coefs R) (freq : Nat) (g : GranuleInfo) (x : Nat → R) : Nat → R :=
  aliasReduce C g (reorder freq g x)

/-- `pcm_real[c][576*gr + n]`, n = 0..575, of a granule (45_filterbank.md R550, R560). -/
def granulePcm {R : Type} [CommRing R] (C : Coefs R) (freq : Nat) (g : GranuleInfo) (x : Nat → R) (y : RefSyn R)
    (n : Nat) : R :=
  polyOut C (polyHistory C (subbandSample C g y (granuleLines C freq g x)) y.v (n / 32 + 1)) (n % 32)

/-- `SYN[c]` after a granule (45_filterbank.md R557, R560). -/
def granuleSyn {R : Type} [CommRing R] (C : Coefs R) (freq : Nat) (g : GranuleInfo) (x : Nat → R) (y : RefSyn R) :
    RefSyn R :=
  ⟨fun sb i => subbandBlock C g (granuleLines C freq g x) sb (18 + i),
   polyHistory C (subbandSample C g y (granuleLines C freq g x)) y.v 18⟩

/-- Channel `ch`'s part of a frame in granule `gr`. -/
def framePart (f : FrameIn) (gr ch : Nat) : Part :=
  let x := if ch = 0 then f.ch0 else f.ch1
  if gr = 0 then x.g0 else x.g1

/-- `xr'[gr][ch]` of a frame (44_requantize_stereo.md R500). -/
def frameSpectrum {R : Type} [CommRing R] (C : Coefs R) (f : FrameIn) (gr ch : Nat) : Nat → R :=
  spectrum C f.header (framePart f gr 0) (framePart f gr 1) ch

/-- `SYN[ch]` after granule 0 of a frame. -/
def frameSynMid {R : Type} [CommRing R] (C : Coefs R) (f : FrameIn) (ch : Nat) (y : RefSyn R) : RefSyn R :=
  granuleSyn C f.header.samplingFrequency.toNat (framePart f 0 ch).info (frameSpectrum C f 0 ch) y

/-- `SYN[ch]` after a frame (45_filterbank.md R550): a channel that the frame does not have keeps its history. -/
def frameSyn {R : Type} [CommRing R] (C : Coefs R) (f : FrameIn) (ch : Nat) (y : RefSyn R) : RefSyn R :=
  if f.header.nch ≤ ch then y
  else granuleSyn C f.header.samplingFrequency.toNat (framePart f 1 ch).info (frameSpectrum C f 1 ch)
    (frameSynMid C f ch y)

/-- `pcm_real[ch][n]`, n = 0..1151 (45_filterbank.md R560). -/
def framePcm {R : Type} [CommRing R] (C : Coefs R) (f : FrameIn) (ch : Nat) (y : RefSyn R) (n : Nat) : R :=
  if n < 576 then
    granulePcm C f.header.samplingFrequency.toNat (framePart f 0 ch).info (frameSpectrum C f 0 ch) y n
  else
    granulePcm C f.header.samplingFrequency.toNat (framePart f 1 ch).info (frameSpectrum C f 1 ch)
      (frameSynMid C f ch y) (n - 576)

end Sys2Proof.Machine
end

