-- ==== Sys2Proof/Machine/Reference.lean ====
section
/-! DEFINITION. The real values of the reference's coefficients, the reference instance of FX, and the accuracy bound
FX_TOL (spec 44, 45 R553 to R560, R584, R590). These are statements about real numbers; the step does not run them. -/

namespace Sys2Proof.Machine

/-- `c[i]` (45_filterbank.md R553). -/
noncomputable def aliasC (i : Nat) : ℝ :=
  ([-0.6, -0.535, -0.33, -0.185, -0.095, -0.041, -0.0142, -0.0037] : List ℝ).getD i 0

/-- `win[t][i]` (45_filterbank.md R555). -/
noncomputable def realWindow (t i : Nat) : ℝ :=
  let long := Real.sin (Real.pi / 36 * ((i : ℝ) + 0.5))
  if t = 1 then
    if i < 18 then long
    else if i < 24 then 1
    else if i < 30 then Real.sin (Real.pi / 12 * ((i : ℝ) - 18 + 0.5))
    else 0
  else if t = 3 then
    if i < 6 then 0
    else if i < 12 then Real.sin (Real.pi / 12 * ((i : ℝ) - 6 + 0.5))
    else if i < 18 then 1
    else long
  else long

/-- The coefficients of the reference on the real numbers, with the parameter SYNTH_D (44_requantize_stereo.md;
45_filterbank.md R553 to R560, R584). -/
noncomputable def realCoefs (D : Nat → ℝ) : Coefs ℝ where
  pow43 v := (Int.sign v : ℝ) * (|v| : ℝ) ^ ((4 : ℝ) / 3)
  quarterPow e := (2 : ℝ) ^ ((e : ℝ) / 4)
  invSqrt2 := 1 / Real.sqrt 2
  kL p := Real.sin (p * Real.pi / 12) / (Real.sin (p * Real.pi / 12) + Real.cos (p * Real.pi / 12))
  kR p := Real.cos (p * Real.pi / 12) / (Real.sin (p * Real.pi / 12) + Real.cos (p * Real.pi / 12))
  cs i := 1 / Real.sqrt (1 + aliasC i ^ 2)
  ca i := aliasC i / Real.sqrt (1 + aliasC i ^ 2)
  longCos i k := Real.cos (Real.pi / 72 * (2 * i + 19) * (2 * k + 1))
  win := realWindow
  shortCos i k := Real.cos (Real.pi / 24 * (2 * i + 7) * (2 * k + 1))
  winShort i := Real.sin (Real.pi / 12 * ((i : ℝ) + 0.5))
  polyCos i k := Real.cos ((16 + i) * (2 * k + 1) * Real.pi / 64)
  synthD := D

/-- The constraint on SYNTH_D that a proof may rely on (45_filterbank.md R584). -/
def SynthDOk (D : Nat → ℝ) : Prop := D 0 = 0

/-- The reference's histories after a sequence of frames, from zero (45_filterbank.md R592). -/
noncomputable def refSynAfter (D : Nat → ℝ) (ch : Nat) : List FrameIn → RefSyn ℝ
  | []      => RefSyn.zero
  | f :: fs => frameSyn (realCoefs D) f ch (refSynAfter D ch fs)

/-- `SYN[0]` and `SYN[1]` after a sequence of frames, the last one first, under an FX `F` from zero histories. -/
def fxSynAfter {Y : Type} (zero : Y) (F : FrameIn → Y → Y → FxOut Y × FxOut Y) : List FrameIn → Y × Y
  | []      => (zero, zero)
  | f :: fs =>
    let out := F f (fxSynAfter zero F fs).1 (fxSynAfter zero F fs).2
    (out.1.syn, out.2.syn)

/-- Sample `n` of channel `ch` that an FX `F` synthesizes for a frame after a sequence of frames. -/
def fxSample {Y : Type} (zero : Y) (F : FrameIn → Y → Y → FxOut Y × FxOut Y) (fs : List FrameIn) (f : FrameIn)
    (ch n : Nat) : Int :=
  let out := F f (fxSynAfter zero F fs).1 (fxSynAfter zero F fs).2
  ((if ch = 0 then out.1 else out.2).samples.toList.getD n 0).toInt

/-- `2^FRAC_BITS * pcm_real[ch][n]` of the reference for a frame after a sequence of frames (45_filterbank.md R590). -/
noncomputable def scaledPcm (D : Nat → ℝ) (fs : List FrameIn) (f : FrameIn) (ch n : Nat) : ℝ :=
  2 ^ Config.fracBits * framePcm (realCoefs D) f ch (refSynAfter D ch fs) n

/-- The values that frame decoding can give: quantized values within 8206 (43_huffman.md R452), side-information fields
within their widths (30_encoding.md R219), scalefactors of at most 4 bits (30_encoding.md R221). -/
def partFits (p : Part) : Prop :=
  granuleFits p.info = true ∧ (∀ v ∈ p.lines.toList, -8206 ≤ v ∧ v ≤ 8206) ∧ (∀ k ∈ p.scf.long.toList, k < 16) ∧
    (∀ k ∈ p.scf.short.toList, k < 16)

/-- A frame whose header passed the validity test, whose main_data_begin and scfsi lie within their widths
(30_encoding.md R217, R218) and whose parts all hold values that decoding can give. -/
def frameFits (f : FrameIn) : Prop :=
  headerValid f.header = true ∧ freeFormat f.header = false ∧ f.mainDataBegin < 512 ∧ f.ch0.scfsi < 16 ∧
    f.ch1.scfsi < 16 ∧ ∀ gr ch, partFits (framePart f gr ch)

/-- FX_TOL holds of an FX `F` (45_filterbank.md R590): every sample lies within `tol` of the reference's, in units of
`2^-FRAC_BITS`. Of the block's own FX, `fxFrame`, the spec fixes no bound, so `FxWithin zeroSyn fxFrame D tol` is a
hypothesis and never a fact of the model. -/
def FxWithin {Y : Type} (zero : Y) (F : FrameIn → Y → Y → FxOut Y × FxOut Y) (D : Nat → ℝ) (tol : ℝ) : Prop :=
  ∀ (fs : List FrameIn) (f : FrameIn) (ch n : Nat), (∀ g ∈ f :: fs, frameFits g) → ch < f.header.nch → n < 1152 →
    |(fxSample zero F fs f ch n : ℝ) - scaledPcm D fs f ch n| ≤ tol

/-- FX_TOL holds of an FX inside the range of a sample (45_filterbank.md R590). -/
def FxWithinRange {Y : Type} (zero : Y) (F : FrameIn → Y → Y → FxOut Y × FxOut Y) (D : Nat → ℝ) (tol : ℝ) : Prop :=
  ∀ (fs : List FrameIn) (f : FrameIn) (ch n : Nat), (∀ g ∈ f :: fs, frameFits g) → ch < f.header.nch → n < 1152 →
    -(2 ^ 31) ≤ scaledPcm D fs f ch n → scaledPcm D fs f ch n ≤ 2 ^ 31 - 1 →
    |(fxSample zero F fs f ch n : ℝ) - scaledPcm D fs f ch n| ≤ tol

/-- The sample of the reference instance `FX_ideal` for a real value (45_filterbank.md R590). -/
noncomputable def idealSample (x : ℝ) : Int :=
  clampInt ⌊(2 : ℝ) ^ Config.fracBits * x + 1 / 2⌋ (-(2 ^ 31)) (2 ^ 31 - 1)

/-- `FX_ideal` for one channel: `pcm_real` exactly, and the history held as exact reals (45_filterbank.md R590). -/
noncomputable def idealChannel (D : Nat → ℝ) (f : FrameIn) (ch : Nat) (y : RefSyn ℝ) : FxOut (RefSyn ℝ) :=
  ⟨Vector.ofFn (fun n => BitVec.ofInt 32 (idealSample (framePcm (realCoefs D) f ch y n))),
   frameSyn (realCoefs D) f ch y⟩

/-- `FX_ideal`, the reference instance of FX (45_filterbank.md R590), with the parameter SYNTH_D. Its histories are real
numbers; the block's own FX is `fxFrame` (assumption logs 7 and 15). -/
noncomputable def fxIdeal (D : Nat → ℝ) (f : FrameIn) (y0 y1 : RefSyn ℝ) : FxOut (RefSyn ℝ) × FxOut (RefSyn ℝ) :=
  (idealChannel D f 0 y0, if f.header.nch = 1 then silentOut y1 else idealChannel D f 1 y1)

end Sys2Proof.Machine
end

