-- ==== Sys2Proof/Safety.lean ====
section
/-! DEFINITION. What holds of the block between steps: the invariants of the reader, the input buffer, the command
protocol, the PCM registers, the reported format and the register ranges. -/

namespace Sys2Proof.Machine

/-- The reader's invariant (40_bitstream_reader.md R308; R302; R303's first corner case; 00_scope.md R8). -/
structure ReaderInv (s : State) : Prop where
  cap     : 1441 ≤ s.ibufCap
  posLe   : s.pos ≤ s.avail
  availLe : s.avail ≤ s.ibufCap
  countLe : s.refillCount ≤ s.refillMax
  room    : s.engine = .needData → s.avail + s.refillMax ≤ s.ibufCap
  asks    : s.engine = .needData → 1 ≤ s.refillMax ∧ s.pos = 0
  quiet   : s.engine ≠ .needData → s.refillMax = 0
  filling : s.pending = .opening → s.avail = 0 ∧ s.eof = false

/-- The input buffer is in canonical form and lists nothing from IBUF_CAP on, and its guard region reads 0 whatever
GUARD_BYTES is (10_state.md R90; assumption log 25). -/
structure BufferInv (s : State) : Prop where
  wf      : s.ibuf.wf = true
  inRange : ∀ c ∈ s.ibuf, c.1 < s.ibufCap
  guard   : ∀ a, inGuard s a → s.ibuf.read a = 0

/-- The command protocol's invariant (47_session_commands.md R650, R651; 10_state.md R63; 20_memory.md R172). -/
structure ProtocolInv (s : State) : Prop where
  pendingNone : s.pending = .none ↔ s.engine = .idle
  busyPulls   : s.engine = .busy → s.pending = .pulling
  notDone     : s.engine ≠ .idle → s.done = false
  streams     : s.pending = .pulling → s.session = .streaming
  pcm         : s.pcmValid = true → s.engine = .idle ∧ s.session = .streaming ∧ s.eos = false ∧ s.lock ≠ none
  eosIdle     : s.eos = true → s.engine = .idle ∧ s.session = .exhausted

/-- The PCM Buffer's registers (10_state.md R71, R72; 46_pcm_output.md R606, R608). -/
structure PcmInv (s : State) : Prop where
  valid   : s.pcmValid = true →
    s.pcmLength = 1152 ∧ (s.pcmChannels = 1 ∨ s.pcmChannels = 2) ∧ (s.srcChannels = 2 → s.pcmChannels = 2)
  invalid : s.pcmValid = false → s.pcmLength = 0 ∧ s.pcmChannels = 0

/-- The registers that report the last delivered frame agree with its header and with the format lock (10_state.md R67 to
R70, R92; 41_frame_header.md R358); before a delivery they and the histories are zero, and a single-channel session never
touches SYN[1] (10_state.md R120; 45_filterbank.md R590 F5, R592). -/
structure FormatInv (s : State) : Prop where
  unlocked : s.lock = none →
    s.header = 0 ∧ s.sampleRate = 0 ∧ s.bitrate = 0 ∧ s.srcChannels = 0 ∧ s.syn0 = zeroSyn ∧ s.syn1 = zeroSyn
  locked   : ∀ l, s.lock = some l →
    syncOk (headerOfWord s.header) = true ∧ headerValid (headerOfWord s.header) = true ∧
    freeFormat (headerOfWord s.header) = false ∧
    l = ⟨(headerOfWord s.header).fs, (headerOfWord s.header).nch⟩ ∧ s.sampleRate = BitVec.ofNat 32 l.fs ∧
    s.srcChannels = BitVec.ofNat 32 l.nch ∧ s.bitrate = BitVec.ofNat 32 (headerOfWord s.header).kbps ∧
    (l.nch = 1 → s.syn1 = zeroSyn)

/-- Reserved bits read 0 (10_state.md R61, R78), the reservoir keeps at most RES_KEEP bytes between frames (10_state.md
R91), and the snapshot's values lie in -8206..8206 (10_state.md R96). -/
structure RangeInv (s : State) : Prop where
  ctrl     : s.ctrl &&& ~~~ctrlMask = 0
  dbgSel   : s.dbgSel &&& ~~~dbgSelMask = 0
  res      : s.res.length ≤ Config.resKeep
  snapshot : ∀ gr ch line, -8206 ≤ snapLine s.isSnap gr ch line ∧ snapLine s.isSnap gr ch line ≤ 8206

/-- All of them. -/
structure Inv (s : State) : Prop where
  reader   : ReaderInv s
  buffer   : BufferInv s
  protocol : ProtocolInv s
  pcm      : PcmInv s
  format   : FormatInv s
  range    : RangeInv s

/-- A PULL is decoding: the engine has a step to take (47_session_commands.md R672). -/
def decoding (s : State) : Prop := s.engine = .busy ∧ s.pending = .pulling

/-- The command that the next input issues, if it is a write of a legal word to CMD (47_session_commands.md R681). -/
def nextCommand (s : State) : Option Instr :=
  match s.inputs with
  | .write off len v :: _ =>
    if off = 0x008 ∧ len = 4 then (match decode v with | .ok i => some i | .error _ => none) else none
  | _ => none

/-- The next input is the platform's reset (70_reset_and_hazards.md R750). -/
def nextIsReset (s : State) : Bool :=
  match s.inputs with
  | .reset :: _ => true
  | _           => false

/-- The unconsumed input, `IBUF[pos .. avail-1]` (10_state.md R98; 40_bitstream_reader.md R308). -/
def unread (s : State) : List Byte := s.ibuf.slice s.pos (s.avail - s.pos)

/-- The bytes staged in the response in progress (40_bitstream_reader.md R304, R305). -/
def staged (s : State) : List Byte := s.ibuf.slice s.avail s.refillCount

/-- The words that 30_encoding.md R203 calls illegal. -/
def illegalWord (w : Word) : Prop :=
  0x07 ≤ (w.extractLsb' 0 8).toNat ∨ w.extractLsb' 9 23 ≠ 0 ∨ (w.getLsbD 8 = true ∧ w.extractLsb' 0 8 ≠ 0x05#8)

/-- The header at the cursor passes the sync and validity tests (41_frame_header.md R352, R353), in the bits of `H`. -/
def validHeaderWord (H : Word) : Prop :=
  H.extractLsb' 20 12 = 0xFFF#12 ∧ H.getLsbD 19 = true ∧ H.extractLsb' 17 2 = 0b01#2 ∧ H.extractLsb' 12 4 ≠ 15#4 ∧
    H.extractLsb' 10 2 ≠ 3#2

/-- Two states that differ only in input-buffer bytes that are not input and not staged (10_state.md R90;
40_bitstream_reader.md R309). -/
def SameInput (s t : State) : Prop :=
  t = { s with ibuf := t.ibuf } ∧ ∀ a, a < s.avail + s.refillCount → t.ibuf.read a = s.ibuf.read a

/-- Two states in the same run of a session: what decides later PCM agrees (45_filterbank.md R593; 47_session_commands.md
R688). They may differ in the session that an OPEN in progress will replace, in input-buffer bytes that are not input, in
PCM_MEM entries that are not valid, and in the answer to the last host access. -/
structure SameRun (s t : State) : Prop where
  rest    : t = { s with session := t.session, ibuf := t.ibuf, pcmMem := t.pcmMem, busData := t.busData }
  session : s.pending ≠ .opening → t.session = s.session
  input   : ∀ a, a < s.avail + s.refillCount → t.ibuf.read a = s.ibuf.read a
  pcm     : s.pcmValid = true → ∀ k, k < s.pcmLength.toNat * s.pcmChannels.toNat →
    t.pcmMem.toList.getD k 0 = s.pcmMem.toList.getD k 0

/-- A run of `n` steps from `s` that ends in a next state. -/
def runs (n : Nat) (s t : State) : Prop := Sys2Proof.core.run n s = .next t

end Sys2Proof.Machine
end

