-- ==== Sys2Proof/Certificates/Slice0/Obligations.lean ====
section
/-! DEFINITION. The statements about the model that are left to the provers. Each one's docstring names the rules of spec/
that it formalises, or rests on. -/

section Statements

open Sys2Proof Sys2Proof.Machine

/-! ## Encodings -/

/-- The eight words of 30_encoding.md R202 decode to the eight commands (test vectors CW-1 to CW-8). -/
def Obligations.SampleWordsDecode : Prop :=
  decode 0x00000000#32 = .ok .nop ∧ decode 0x00000001#32 = .ok .reset ∧ decode 0x00000002#32 = .ok .openFile ∧
  decode 0x00000003#32 = .ok .pull ∧ decode 0x00000004#32 = .ok .close ∧ decode 0x00000005#32 = .ok .refillDone ∧
  decode 0x00000105#32 = .ok .refillDoneErr ∧ decode 0x00000006#32 = .ok .irqAck

/-- 30_encoding.md R202: a command's word is the only word that decodes to it, and the words are these eight. -/
def Obligations.CommandWordsAreExact : Prop :=
  (∀ (w : Word) (i : Instr), decode w = .ok i ↔ w = encode i) ∧
  encode .nop = 0x00000000#32 ∧ encode .reset = 0x00000001#32 ∧ encode .openFile = 0x00000002#32 ∧
  encode .pull = 0x00000003#32 ∧ encode .close = 0x00000004#32 ∧ encode .refillDone = 0x00000005#32 ∧
  encode .refillDoneErr = 0x00000105#32 ∧ encode .irqAck = 0x00000006#32

/-- 30_encoding.md R203: the words it lists, and no others, are illegal; a write of one to CMD changes ERR and nothing
else of the block, in every state. -/
def Obligations.IllegalWordsSetErrOnly : Prop :=
  ∀ (w : Word) (s : State),
    (illegalWord w ↔ ∃ r, decode w = .error r) ∧
    (illegalWord w → hostWrite 0x008 4 w s = .next { respond false 0 (tick s) with err := .illegalCmd })

/-- 30_encoding.md R210: the header's fields and its word carry the same bits, and a field is these bits of the word. -/
def Obligations.HeaderFieldsAndWordAgree : Prop :=
  (∀ H : Word, wordOfHeader (headerOfWord H) = H) ∧ (∀ h : Header, headerOfWord (wordOfHeader h) = h) ∧
  ∀ b0 b1 b2 b3 : Byte,
    let h := headerOfWord (wordOfBytes b0 b1 b2 b3)
    h.sync = b0 ++ b1.extractLsb' 4 4 ∧ h.id = b1.extractLsb' 3 1 ∧ h.layer = b1.extractLsb' 1 2 ∧
    h.protection = b1.extractLsb' 0 1 ∧ h.bitrateIndex = b2.extractLsb' 4 4 ∧
    h.samplingFrequency = b2.extractLsb' 2 2 ∧ h.padding = b2.extractLsb' 1 1 ∧ h.privateBit = b2.extractLsb' 0 1 ∧
    h.mode = b3.extractLsb' 6 2 ∧ h.modeExtension = b3.extractLsb' 4 2 ∧ h.copyright = b3.extractLsb' 3 1 ∧
    h.original = b3.extractLsb' 2 1 ∧ h.emphasis = b3.extractLsb' 0 2

/-- 30_encoding.md R217 to R219, 42_side_info_main_data.md R400: side information of one or two channels is 136 or 256
bits, and the parse reads back every value that its fields can hold, whatever the ignored bits and whatever follows. -/
def Obligations.SideInfoRoundTrip : Prop :=
  ∀ (nch ignored p : Nat) (x : SideInfo) (rest : List Bool), nch = 1 ∨ nch = 2 → sideInfoFits nch x = true →
    (sideInfoBits nch ignored x).length = (if nch = 1 then 136 else 256) ∧
    parseSideInfo nch ⟨p, sideInfoBits nch ignored x ++ rest⟩ = x

/-- 30_encoding.md R223, 43_huffman.md R458: in every table that exists, every codeword with every value it can stand
for, escapes and signs with them, decodes to that pair and uses exactly the pair's bits. -/
def Obligations.HuffmanPairRoundTrip : Prop :=
  ∀ (t p : Nat) (k : Code) (x y : Int) (rest : List Bool), 0 < t → t < 32 → missingTable t = false →
    k ∈ codeSet (codeSetNumber t) → valueFits (linbits t) k.x x = true → valueFits (linbits t) k.y y = true →
    decodePair t ⟨p, pairBits t k x y ++ rest⟩ = .ok ((x, y), ⟨p + (pairBits t k x y).length, rest⟩)

/-- 30_encoding.md R224, 43_huffman.md R455, R461: in both count1 tables every quadruple of values in {-1, 0, 1} decodes
to itself and uses exactly its bits; on any bits at all a codeword matches; and the codewords of the two tables are
R455's, by `q`. -/
def Obligations.HuffmanQuadRoundTrip : Prop :=
  (∀ (sel : Bool) (p : Nat) (v w x y : Int) (rest : List Bool),
    v.natAbs ≤ 1 → w.natAbs ≤ 1 → x.natAbs ≤ 1 → y.natAbs ≤ 1 →
    decodeQuad sel ⟨p, quadBits sel v w x y ++ rest⟩ = ([v, w, x, y], ⟨p + (quadBits sel v w x y).length, rest⟩)) ∧
  (∀ (sel : Bool) (c : Cursor), (matchCode (quadTable sel) (longestCode (quadTable sel)) [] c).isSome = true) ∧
  (List.range 16).map (quadCode false) =
    [[true], [false, true, false, true], [false, true, false, false], [false, false, true, false, true],
     [false, true, true, false], [false, false, false, true, false, true], [false, false, true, false, false],
     [false, false, false, true, false, false], [false, true, true, true], [false, false, false, true, true],
     [false, false, true, true, false], [false, false, false, false, false, false], [false, false, true, true, true],
     [false, false, false, false, true, false], [false, false, false, false, true, true],
     [false, false, false, false, false, true]] ∧
  ∀ q, q < 16 → quadCode true q =
    [(15 - q).testBit 3, (15 - q).testBit 2, (15 - q).testBit 1, (15 - q).testBit 0]

/-- 43_huffman.md R452: the code set of every table that exists meets the constraints: one codeword for each pair of
0..dim-1, none longer than 19 bits, none that begins another. The code sets' numbers, dimensions and linbits, by
table_select, and the code set H1 are those of R452; every other code set is the parameter HUFF_TABLES where that meets
the constraints (assumption log 10). -/
def Obligations.CodeSetsMeetConstraints : Prop :=
  (List.range 32).map codeSetNumber =
    [0, 1, 2, 3, 0, 5, 6, 7, 8, 9, 10, 11, 12, 13, 0, 15, 16, 16, 16, 16, 16, 16, 16, 16,
     24, 24, 24, 24, 24, 24, 24, 24] ∧
  ([1, 2, 3, 5, 6, 7, 8, 9, 10, 11, 12, 13, 15, 16, 24].map codeSetDim =
    [2, 3, 3, 4, 4, 6, 6, 6, 8, 8, 8, 16, 16, 16, 16]) ∧
  (List.range 32).map linbits =
    [0, 0, 0, 0, 0, 0, 0, 0, 0, 0, 0, 0, 0, 0, 0, 0, 1, 2, 3, 4, 6, 8, 10, 13, 4, 5, 6, 7, 8, 9, 11, 13] ∧
  codeSet 1 = [⟨[true], 0, 0⟩, ⟨[false, false, true], 0, 1⟩, ⟨[false, true], 1, 0⟩, ⟨[false, false, false], 1, 1⟩] ∧
  (∀ n, 1 < n → codeSet n = Config.huffTables n ∨ codeSetValid (codeSetDim n) (Config.huffTables n) = false) ∧
  ∀ t, 0 < t → t < 32 → missingTable t = false →
    let n := codeSetNumber t
    let codes := codeSet n
    codes.length = codeSetDim n * codeSetDim n ∧
    (∀ x y, x < codeSetDim n → y < codeSetDim n → ∃ k ∈ codes, k.x = x ∧ k.y = y) ∧
    (∀ k ∈ codes, k.x < codeSetDim n ∧ k.y < codeSetDim n ∧ k.bits.length ≤ 19) ∧
    (∀ k ∈ codes, ∀ j ∈ codes, k.bits <+: j.bits → k = j)

/-! ## Steps and host accesses -/

/-- 10_state.md R51, 20_memory.md R170, 47_session_commands.md R681: a step takes the next input, or an engine step when
there is none; a legal word written to CMD runs its command on the state that the access leaves (the model's `epoch` one
on, the answer on the bus: no error, data 0). -/
def Obligations.StepRunsWrittenCommand : Prop :=
  (∀ (s : State) (es : List Event) (v : Word) (i : Instr),
    s.inputs = .write 0x008 4 v :: es → decode v = .ok i →
    step s = exec i (respond false 0 (tick { s with inputs := es }))) ∧
  (∀ (s : State) (i : Instr), step (s.withFetchWord 32 (encode i).toNat) = exec i (respond false 0 (tick s))) ∧
  (∀ s : State, s.inputs = [] → step s = .next (engineStep s)) ∧
  (∀ (s : State) (es : List Event), s.inputs = .engine :: es → step s = .next (engineStep { s with inputs := es })) ∧
  (∀ (s : State) (es : List Event), s.inputs = .reset :: es →
    step s = .next (resetBlock (tick { s with inputs := es }))) ∧
  (∀ (s : State) (es : List Event) (off len : Nat), s.inputs = .read off len :: es →
    step s = hostRead off len { s with inputs := es }) ∧
  (∀ (s : State) (es : List Event) (off len : Nat) (v : Word), s.inputs = .write off len v :: es →
    step s = hostWrite off len v { s with inputs := es })

/-- 10_state.md R55, R60 to R79: what an aligned 4-byte read of each register answers, STATUS by its fields (R63;
60_exceptions.md R704) and DIAG_CAUSE by the codes of R702. That REFILL_MAX, REFILL_COUNT and BUF_LEVEL read modulo 2^32 is the model's choice (assumption log
18). -/
def Obligations.RegistersRead : Prop :=
  ∀ s : State,
    hostRead 0x000 4 s = .next (respond false 0x4D503301#32 s) ∧
    hostRead 0x004 4 s = .next (respond false s.ctrl s) ∧
    hostRead 0x008 4 s = .next (respond false 0 s) ∧
    hostRead 0x00C 4 s = .next (respond false (statusWord s) s) ∧
    (statusWord s).extractLsb' 0 2 = (match s.engine with | .idle => 0#2 | .busy => 1#2 | .needData => 2#2) ∧
    (statusWord s).extractLsb' 2 2 =
      (match s.session with | .uninitialized => 0#2 | .streaming => 1#2 | .exhausted => 2#2) ∧
    (statusWord s).getLsbD 4 = s.pcmValid ∧ (statusWord s).getLsbD 5 = s.eos ∧ (statusWord s).getLsbD 6 = s.eof ∧
    (statusWord s).getLsbD 7 = s.done ∧
    (statusWord s).extractLsb' 8 4 =
      (match s.err with
        | .none => 0#4 | .illegalCmd => 1#4 | .busy => 2#4 | .noSession => 3#4 | .fileError => 4#4 | .protocol => 5#4
        | .overflow => 6#4) ∧
    (statusWord s).extractLsb' 12 4 = (match s.pending with | .none => 0#4 | .opening => 2#4 | .pulling => 3#4) ∧
    (statusWord s).extractLsb' 16 16 = 0#16 ∧
    hostRead 0x010 4 s = .next (respond false (BitVec.ofNat 32 s.refillMax) s) ∧
    hostRead 0x014 4 s = .next (respond false (BitVec.ofNat 32 s.refillCount) s) ∧
    hostRead 0x018 4 s = .next (respond false 0 s) ∧
    hostRead 0x01C 4 s = .next (respond false s.header s) ∧
    hostRead 0x020 4 s = .next (respond false s.sampleRate s) ∧
    hostRead 0x024 4 s = .next (respond false s.bitrate s) ∧
    hostRead 0x028 4 s = .next (respond false s.srcChannels s) ∧
    hostRead 0x02C 4 s = .next (respond false s.pcmLength s) ∧
    hostRead 0x030 4 s = .next (respond false s.pcmChannels s) ∧
    hostRead 0x034 4 s = .next (respond false s.frames s) ∧
    hostRead 0x038 4 s = .next (respond false s.resyncs s) ∧
    hostRead 0x03C 4 s = .next (respond false s.dropped s) ∧
    hostRead 0x040 4 s = .next (respond false (s.diagCause.code.setWidth 32) s) ∧
    s.diagCause.code =
      (match s.diagCause with
        | .none => 0#4 | .syncSkip => 1#4 | .reservoirUnderflow => 2#4 | .part23Overrun => 3#4
        | .badBlockType => 4#4 | .bigValuesRange => 5#4 | .badTable => 6#4 | .scalefacOverrun => 7#4
        | .huffmanOverrun => 8#4 | .badHuffcode => 9#4) ∧
    hostRead 0x044 4 s = .next (respond false (BitVec.ofNat 32 (s.avail - s.pos)) s) ∧
    hostRead 0x048 4 s = .next (respond false s.dbgSel s) ∧
    hostRead 0x04C 4 s = .next (respond false (dbgData s) s) ∧
    dbgData s =
      (if (s.dbgSel.extractLsb' 0 10).toNat < 576 then
        BitVec.ofInt 32 (snapLine s.isSnap (s.dbgSel.extractLsb' 11 1).toNat (s.dbgSel.extractLsb' 10 1).toNat
          (s.dbgSel.extractLsb' 0 10).toNat)
      else 0)

/-- 20_memory.md R160: no read has a side effect and every read is idempotent; a write elsewhere than CMD and IN_DATA
changes nothing of the block but the writable fields of CTRL and DBG_SEL. The answer on the bus and `epoch` are the
model's own fields. -/
def Obligations.AccessSideEffects : Prop :=
  ∀ (s : State) (off len : Nat) (v : Word), off < 0x4000 →
    (∃ e d, hostRead off len s = .next (respond e d s) ∧
      ∀ e' d', hostRead off len (respond e' d' s) = .next (respond e d s)) ∧
    (¬ (len = 4 ∧ (off = 0x008 ∨ off = 0x018)) →
      ∃ e, hostWrite off len v s = .next { respond e 0 (tick s) with
        ctrl := if off = 0x004 ∧ len = 4 then v &&& 0x00000003#32 else s.ctrl
        dbgSel := if off = 0x048 ∧ len = 4 then v &&& 0x00000FFF#32 else s.dbgSel })

/-- 20_memory.md R158: the accesses it lists get a bus error with read data 0 and change no state of the block. That an
access which runs over a region's end belongs to the region of its first byte is the model's choice (assumption log 23).
-/
def Obligations.BusErrorsChangeNothing : Prop :=
  ∀ (s : State) (off len : Nat) (v : Word),
    (off < 0x1000 ∧ ¬ (len = 4 ∧ off % 4 = 0)) ∨
    (0x2000 ≤ off ∧ off < 0x3200 ∧ (len = 1 ∨ 4 < len)) ∨
    (off < 0x4000 ∧ ((len = 2 ∧ off % 2 ≠ 0) ∨ (len = 4 ∧ off % 4 ≠ 0))) →
    hostRead off len s = .next (respond true 0 s) ∧ hostWrite off len v s = .next (respond true 0 (tick s))

/-- 20_memory.md R157: unmapped offsets read 0 and ignore writes, with no bus error. -/
def Obligations.UnmappedOffsetsReadZero : Prop :=
  ∀ (s : State) (off len : Nat) (v : Word),
    (len = 4 ∧ off % 4 = 0 ∧ ((0x050 ≤ off ∧ off < 0x2000) ∨ (0x3200 ≤ off ∧ off < 0x4000))) ∨
    (len = 2 ∧ off % 2 = 0 ∧ ((0x1000 ≤ off ∧ off < 0x2000) ∨ (0x3200 ≤ off ∧ off < 0x4000))) →
    hostRead off len s = .next (respond false 0 s) ∧ hostWrite off len v s = .next (respond false 0 (tick s))

/-- 20_memory.md R153, R154 (HOST_ENDIAN little): 2-byte and 4-byte reads of valid PCM entries, the two widths'
agreement on every entry (the spec derives this in R155), and writes ignored. On entries that are not valid the agreement
is the model's choice of one free value for each `epoch` and entry (assumption log 1); that the bus word of a 2-byte read
has 0 above the 16 bits is the model's choice too (assumption log 22). -/
def Obligations.PcmWindow : Prop :=
  ∀ (s : State) (k : Nat) (v : Word),
    (k < 2304 → s.pcmValid = true → k < s.pcmLength.toNat * s.pcmChannels.toNat →
      hostRead (0x2000 + 2 * k) 2 s = .next (respond false ((s.pcmMem.toList.getD k 0).setWidth 32) s)) ∧
    (k < 2304 → hostRead (0x2000 + 2 * k) 2 s = .next (respond false ((pcmEntry s k).setWidth 32) s)) ∧
    (k < 1152 → ∃ a b : Pcm,
      hostRead (0x2000 + 4 * k) 2 s = .next (respond false (a.setWidth 32) s) ∧
      hostRead (0x2000 + 4 * k + 2) 2 s = .next (respond false (b.setWidth 32) s) ∧
      hostRead (0x2000 + 4 * k) 4 s = .next (respond false (b ++ a) s)) ∧
    (k < 2304 → hostWrite (0x2000 + 2 * k) 2 v s = .next (respond false 0 (tick s))) ∧
    (k < 1152 → hostWrite (0x2000 + 4 * k) 4 v s = .next (respond false 0 (tick s)))

/-- 20_memory.md R172, 70_reset_and_hazards.md R761: while PCM_VALID is 0, and above the valid range, a read answers the
free value of the entry, which nothing constrains and which PCM_MEM's stored contents do not reach; it may change with
every host write and every iteration (assumption log 1). The bus word is 0 above the 16 bits (assumption log 22). -/
def Obligations.InvalidPcmIsUnspecified : Prop :=
  (∀ (s : State) (k : Nat) (m : Vector Pcm 2304), k < 2304 →
    (s.pcmValid = false ∨ s.pcmLength.toNat * s.pcmChannels.toNat ≤ k) →
    hostRead (0x2000 + 2 * k) 2 { s with pcmMem := m } =
      .next (respond false ((Config.freePcm s.epoch k).setWidth 32) { s with pcmMem := m })) ∧
  (∀ s : State, decoding s → (engineStep s).epoch = s.epoch + 1) ∧
  (∀ (s t : State) (off len : Nat) (v : Word), hostWrite off len v s = .next t → t.epoch = s.epoch + 1)

/-- 40_bitstream_reader.md R304: the three cases of an IN_DATA write. An accepted one stages the low byte and changes
nothing else. -/
def Obligations.InDataWrite : Prop :=
  ∀ (s : State) (v : Word), s.ibuf.wf = true →
    (s.engine ≠ .needData →
      hostWrite 0x018 4 v s = .next { respond false 0 (tick s) with err := .protocol }) ∧
    (s.engine = .needData → s.refillCount = s.refillMax →
      hostWrite 0x018 4 v s = .next { respond false 0 (tick s) with err := .overflow }) ∧
    (s.engine = .needData → s.refillCount ≠ s.refillMax →
      ∃ m : Mem, hostWrite 0x018 4 v s =
          .next { respond false 0 (tick s) with ibuf := m, refillCount := s.refillCount + 1 } ∧
        m.read (s.avail + s.refillCount) = v.extractLsb' 0 8 ∧
        ∀ a, a ≠ s.avail + s.refillCount → m.read a = s.ibuf.read a)

/-- 60_exceptions.md R710 to R712: the interrupt line, in the bits of CTRL and STATUS, and low after reset. -/
def Obligations.InterruptLine : Prop :=
  (∀ s : State, irqLine s =
    (s.ctrl.getLsbD 1 && ((statusWord s).getLsbD 7 || decide ((statusWord s).extractLsb' 0 2 = 2#2)))) ∧
  irqLine State.reset = false

/-! ## Commands -/

/-- 47_session_commands.md R681, R682; 60_exceptions.md R704, R705: the rejections, each of which changes ERR only. -/
def Obligations.CommandsRejected : Prop :=
  ∀ s : State,
    (s.engine ≠ .idle → ∀ i ∈ [Instr.nop, .openFile, .pull, .close], exec i s = .next { s with err := .busy }) ∧
    (s.engine = .idle → s.session = .uninitialized → exec .pull s = .next { s with err := .noSession }) ∧
    (s.engine ≠ .needData → ∀ i ∈ [Instr.refillDone, .refillDoneErr], exec i s = .next { s with err := .protocol })

/-- 47_session_commands.md R655 (with R680): NOP completes when IDLE, and raises BUSY otherwise. The states displayed
are its whole frame. -/
def Obligations.NopCompletes : Prop :=
  encode .nop = 0x00000000#32 ∧ ∀ s : State,
    (s.engine = .idle →
      exec .nop s = .next { s with
        err := .none, done := true, engine := .idle, pending := .none, refillMax := 0, refillCount := 0 }) ∧
    (s.engine ≠ .idle → exec .nop s = .next { s with err := .busy })

/-- 47_session_commands.md R656, 70_reset_and_hazards.md R750, 10_state.md R120: RESET runs in every state, and leaves
these values; the reset input does the same, and a block at reset stays as it is. That IBUF_CAP and the inputs still to
come stay is the model's choice (assumption log 20). That a block at reset stays as it is rests, for the contents of IBUF
and PCM_MEM, which the spec leaves unspecified there, and for the model's own fields, on the model's choices (assumption
logs 2, 3 and 20). -/
def Obligations.ResetPutsResetValues : Prop :=
  ∀ s : State,
    (∃ t, exec .reset s = .next t ∧ statusWord t = 0 ∧ t.ctrl = 0 ∧ t.engine = .idle ∧ t.session = .uninitialized ∧
      t.pending = .none ∧ t.pcmValid = false ∧ t.eos = false ∧ t.eof = false ∧ t.done = false ∧ t.err = .none ∧
      t.refillMax = 0 ∧ t.refillCount = 0 ∧ t.avail = 0 ∧ t.pos = 0 ∧ t.res = [] ∧ t.lock = none ∧
      t.syn0 = zeroSyn ∧ t.syn1 = zeroSyn ∧ t.header = 0 ∧ t.sampleRate = 0 ∧ t.bitrate = 0 ∧ t.srcChannels = 0 ∧
      t.pcmLength = 0 ∧ t.pcmChannels = 0 ∧ t.frames = 0 ∧ t.resyncs = 0 ∧ t.dropped = 0 ∧ t.diagCause = .none ∧
      t.dbgSel = 0 ∧ t.isSnap = zeroSnap ∧ t.refillErr = false ∧ t.ibufCap = s.ibufCap ∧ t.inputs = s.inputs) ∧
    runEvent .reset s = exec .reset (tick s) ∧
    exec .reset State.reset = .next State.reset

/-- 47_session_commands.md R660: OPEN when IDLE, in any session state, and BUSY otherwise. The states displayed are its
whole frame: CTRL, DBG_SEL and SESSION stay. That the bytes of IBUF and the stored PCM_MEM, which the spec leaves
unspecified there, stay too is the model's choice (assumption logs 2 and 3). -/
def Obligations.OpenStartsFill : Prop :=
  encode .openFile = 0x00000002#32 ∧ ∀ s : State,
    (s.engine = .idle →
      exec .openFile s = .next { s with
        err := .none, done := false,
        res := [], lock := none, syn0 := zeroSyn, syn1 := zeroSyn,
        pcmValid := false, eos := false, pcmLength := 0, pcmChannels := 0,
        header := 0, sampleRate := 0, bitrate := 0, srcChannels := 0,
        frames := 0, resyncs := 0, dropped := 0, diagCause := .none, isSnap := zeroSnap,
        avail := 0, pos := 0, eof := false, refillErr := false,
        refillMax := s.ibufCap, refillCount := 0, engine := .needData, pending := .opening }) ∧
    (s.engine ≠ .idle → exec .openFile s = .next { s with err := .busy })

/-- 47_session_commands.md R665: CLOSE when IDLE, in any session state, and BUSY otherwise. The states displayed are its
whole frame: the counters, IS_SNAP, CTRL and DBG_SEL stay. That the bytes of IBUF and the stored PCM_MEM, which the spec
leaves unspecified there, stay too is the model's choice (assumption logs 2 and 3). -/
def Obligations.CloseEndsSession : Prop :=
  encode .close = 0x00000004#32 ∧ ∀ s : State,
    (s.engine = .idle →
      exec .close s = .next { s with
        err := .none, done := true, session := .uninitialized,
        avail := 0, pos := 0, eof := false, refillErr := false,
        res := [], lock := none, syn0 := zeroSyn, syn1 := zeroSyn,
        pcmValid := false, eos := false, pcmLength := 0, pcmChannels := 0,
        header := 0, sampleRate := 0, bitrate := 0, srcChannels := 0,
        engine := .idle, pending := .none, refillMax := 0, refillCount := 0 }) ∧
    (s.engine ≠ .idle → exec .close s = .next { s with err := .busy })

/-- 47_session_commands.md R670: PULL. In EXHAUSTED it completes at once with EOS; in STREAMING the loop starts with the
next engine step; without a session, and when not IDLE, it is rejected. The states displayed are the whole frame. That the
stored PCM_MEM, unspecified from here on, stays is the model's choice (assumption log 3). -/
def Obligations.PullStartsOrEnds : Prop :=
  encode .pull = 0x00000003#32 ∧ ∀ s : State,
    (s.engine ≠ .idle → exec .pull s = .next { s with err := .busy }) ∧
    (s.engine = .idle → s.session = .uninitialized → exec .pull s = .next { s with err := .noSession }) ∧
    (s.engine = .idle → s.session = .exhausted →
      exec .pull s = .next { s with
        err := .none, done := true, pcmValid := false, pcmLength := 0, pcmChannels := 0, eos := true,
        engine := .idle, pending := .none, refillMax := 0, refillCount := 0 }) ∧
    (s.engine = .idle → s.session = .streaming →
      exec .pull s = .next { s with
        err := .none, done := false, pcmValid := false, pcmLength := 0, pcmChannels := 0, eos := false,
        engine := .busy, pending := .pulling })

/-- 47_session_commands.md R661, R675, 40_bitstream_reader.md R305: REFILL_DONE and REFILL_DONE.ERR answering OPEN's
request. The states displayed are the whole frame, the stored PCM_MEM with it (assumption log 3). -/
def Obligations.RefillDoneCompletesOpen : Prop :=
  ∀ s : State, s.engine = .needData → s.pending = .opening →
    exec .refillDone s = .next { s with
      err := .none, done := true, refillErr := false, avail := s.avail + s.refillCount,
      eof := s.eof || decide (s.refillCount = 0), refillMax := 0, refillCount := 0,
      session := .streaming, engine := .idle, pending := .none } ∧
    exec .refillDoneErr s = .next { s with
      err := .fileError, done := true, refillErr := true, avail := 0, pos := 0, eof := false, refillMax := 0,
      refillCount := 0, session := .uninitialized, engine := .idle, pending := .none }

/-- 47_session_commands.md R675, 40_bitstream_reader.md R305: REFILL_DONE and REFILL_DONE.ERR answering a PULL's
request. The states displayed are the whole frame, the stored PCM_MEM with it (assumption log 3). DONE is 0 already in
every state a run reaches (assumption log 11). -/
def Obligations.RefillDoneResumesPull : Prop :=
  ∀ s : State, s.engine = .needData → s.pending = .pulling →
    exec .refillDone s = .next { s with
      err := .none, done := false, refillErr := false, avail := s.avail + s.refillCount,
      eof := s.eof || decide (s.refillCount = 0), refillMax := 0, refillCount := 0, engine := .busy } ∧
    exec .refillDoneErr s = .next { s with
      err := .none, done := false, refillErr := true, eof := true, refillMax := 0, refillCount := 0,
      engine := .busy }

/-- 47_session_commands.md R678: IRQ_ACK runs in every state, and clears DONE and ERR only. -/
def Obligations.IrqAckClearsDoneAndErr : Prop :=
  encode .irqAck = 0x00000006#32 ∧ ∀ s : State, exec .irqAck s = .next { s with done := false, err := .none }

/-- The frame of the commands (47_session_commands.md, section 2): no command but RESET touches a byte of IBUF, PCM_MEM,
CTRL or DBG_SEL; only OPEN and RESET touch the counters and IS_SNAP; only OPEN, CLOSE and RESET touch the histories, the
reservoir, the lock and the reported format. A rejected command is in the frame too. That OPEN and CLOSE leave IBUF and
PCM_MEM, and PULL and the answers to it PCM_MEM, whose contents the spec leaves unspecified there, is the model's choice
(assumption logs 2 and 3). -/
def Obligations.CommandFrame : Prop :=
  ∀ (i : Instr) (s t : State), exec i s = .next t → i ≠ .reset →
    (∀ a, t.ibuf.read a = s.ibuf.read a) ∧ t.pcmMem = s.pcmMem ∧ t.ctrl = s.ctrl ∧ t.dbgSel = s.dbgSel ∧
    t.ibufCap = s.ibufCap ∧ t.inputs = s.inputs ∧ t.busData = s.busData ∧ t.busError = s.busError ∧
    t.epoch = s.epoch ∧
    (i ≠ .openFile →
      t.frames = s.frames ∧ t.resyncs = s.resyncs ∧ t.dropped = s.dropped ∧ t.diagCause = s.diagCause ∧
      t.isSnap = s.isSnap) ∧
    (i ≠ .openFile → i ≠ .close →
      t.syn0 = s.syn0 ∧ t.syn1 = s.syn1 ∧ t.res = s.res ∧ t.lock = s.lock ∧ t.header = s.header ∧
      t.sampleRate = s.sampleRate ∧ t.bitrate = s.bitrate ∧ t.srcChannels = s.srcChannels)

/-! ## The engine's steps -/

/-- 41_frame_header.md R350 (with R351 to R353, R356 to R359): which outcome the header stage raises, the first in
order; the candidate's word is made of the four bytes at the cursor. -/
def Obligations.HeaderStageOrder : Prop :=
  ∀ s : State,
    let H := headerWordAt s
    let h := headerOfWord H
    let four := 4 ≤ s.avail - s.pos
    let locked := s.lock = none ∨ s.lock = some ⟨h.fs, h.nch⟩
    let candidate := four ∧ validHeaderWord H ∧ H.extractLsb' 12 4 ≠ 0#4 ∧ locked
    let short := ¬ four ∨ (candidate ∧ s.avail - s.pos < h.frameLength)
    H = s.ibuf.read s.pos ++ s.ibuf.read (s.pos + 1) ++ s.ibuf.read (s.pos + 2) ++ s.ibuf.read (s.pos + 3) ∧
    (headerStage s = .bufferExhausted ↔ short ∧ s.eof = false) ∧
    (headerStage s = .endOfStream ↔ short ∧ s.eof = true) ∧
    (headerStage s = .syncSkip ↔ four ∧ ¬ validHeaderWord H) ∧
    (headerStage s = .fatal .freeFormat ↔ four ∧ validHeaderWord H ∧ H.extractLsb' 12 4 = 0#4) ∧
    (headerStage s = .fatal .formatChange ↔
      four ∧ validHeaderWord H ∧ H.extractLsb' 12 4 ≠ 0#4 ∧ ¬ locked) ∧
    (∀ G, headerStage s = .frame G ↔ candidate ∧ h.frameLength ≤ s.avail - s.pos ∧ G = H)

/-- 41_frame_header.md R352 to R354: a candidate that fails the sync or the validity test is skipped by one byte. That the
stored PCM_MEM, unspecified during a PULL, stays is the model's choice (assumption log 3). -/
def Obligations.SyncSkipStep : Prop :=
  ∀ s : State, decoding s → 4 ≤ s.avail - s.pos → ¬ validHeaderWord (headerWordAt s) →
    engineStep s = { tick s with pos := s.pos + 1, resyncs := s.resyncs + 1, diagCause := .syncSkip }

/-- 40_bitstream_reader.md R303: the refill moves the unconsumed tail to the front in order, leaves every other byte,
and asks for the free space, which is at least one byte (the spec derives this bound from R300 and R356). That the stored
PCM_MEM, unspecified during a PULL, stays is the model's choice (assumption log 3). -/
def Obligations.RefillStep : Prop :=
  ∀ s : State, decoding s → ReaderInv s → headerStage s = .bufferExhausted →
    ∃ m : Mem, engineStep s = { tick s with
        ibuf := m, avail := s.avail - s.pos, pos := 0, refillMax := s.ibufCap - (s.avail - s.pos),
        refillCount := 0, refillErr := false, engine := .needData } ∧
      (∀ i, i < s.avail - s.pos → m.read i = s.ibuf.read (s.pos + i)) ∧
      (∀ i, s.avail - s.pos ≤ i → m.read i = s.ibuf.read i) ∧
      1 ≤ s.ibufCap - (s.avail - s.pos)

/-- 47_session_commands.md R674 (40_bitstream_reader.md R307; 60_exceptions.md R706): on exhaustion and on Fatal alike
the PULL ends with EndOfStream, and nothing else changes. That the stored PCM_MEM, unspecified there, stays is the model's
choice (assumption log 3). -/
def Obligations.EndOfStreamStep : Prop :=
  ∀ s : State, decoding s → (headerStage s = .endOfStream ∨ ∃ c, headerStage s = .fatal c) →
    engineStep s = { tick s with
      session := .exhausted, eos := true, pcmValid := false, engine := .idle, pending := .none, done := true,
      refillMax := 0, refillCount := 0 }

/-- 41_frame_header.md R356, 30_encoding.md R212 to R214: the frame length, its table for unpadded frames and its range;
the bitrate in kbit/s, the sampling frequency in Hz, the channel count and joint stereo, by the header's fields. -/
def Obligations.FrameLengthTable : Prop :=
  (∀ h : Header, headerValid h = true → freeFormat h = false →
    h.frameLength = 144000 * h.kbps / h.fs + h.padding.toNat ∧ 96 ≤ h.frameLength ∧ h.frameLength ≤ 1441) ∧
  (∀ h : Header, h.padding = 0#1 → 1 ≤ h.bitrateIndex.toNat → h.bitrateIndex.toNat ≤ 14 →
    (h.samplingFrequency = 0#2 → some h.frameLength =
      [104, 130, 156, 182, 208, 261, 313, 365, 417, 522, 626, 731, 835, 1044][h.bitrateIndex.toNat - 1]?) ∧
    (h.samplingFrequency = 1#2 → some h.frameLength =
      [96, 120, 144, 168, 192, 240, 288, 336, 384, 480, 576, 672, 768, 960][h.bitrateIndex.toNat - 1]?) ∧
    (h.samplingFrequency = 2#2 → some h.frameLength =
      [144, 180, 216, 252, 288, 360, 432, 504, 576, 720, 864, 1008, 1152, 1440][h.bitrateIndex.toNat - 1]?)) ∧
  (∀ h : Header,
    (1 ≤ h.bitrateIndex.toNat → h.bitrateIndex.toNat ≤ 14 → some h.kbps =
      [32, 40, 48, 56, 64, 80, 96, 112, 128, 160, 192, 224, 256, 320][h.bitrateIndex.toNat - 1]?) ∧
    (h.samplingFrequency = 0#2 → h.fs = 44100) ∧ (h.samplingFrequency = 1#2 → h.fs = 48000) ∧
    (h.samplingFrequency = 2#2 → h.fs = 32000) ∧
    (h.mode = 3#2 → h.nch = 1) ∧ (h.mode ≠ 3#2 → h.nch = 2) ∧ (h.joint = true ↔ h.mode = 1#2) ∧
    (h.msStereo = true ↔ h.mode = 1#2 ∧ h.modeExtension.getLsbD 1 = true) ∧
    (h.intensityStereo = true ↔ h.mode = 1#2 ∧ h.modeExtension.getLsbD 0 = true))

/-- 42_side_info_main_data.md R418 (with R412, R415): a dropped frame. The reservoir keeps the last 511 bytes of itself
and the frame's main data, and DIAG_CAUSE takes one of the eight drop causes (60_exceptions.md R702). The frame is the L
bytes from the cursor on (41_frame_header.md R359), and its main data the bytes after the header, the CRC word, present
when protection_bit is 0, and the 17 or 32 bytes of side information (30_encoding.md R216). -/
def Obligations.FrameDropStep : Prop :=
  ∀ (s : State) (H : Word) (c : Cause),
    let h := headerOfWord H
    let frame := (List.range h.frameLength).map fun i => s.ibuf.read (s.pos + i)
    let crc := if h.protection = 0#1 then 2 else 0
    let side := if h.mode = 3#2 then 17 else 32
    let whole := s.res ++ frame.drop (4 + crc + side)
    frameBytes s h = frame ∧ mainDataOf h frame = frame.drop (4 + crc + side) ∧
    (decoding s → headerStage s = .frame H → decodeFrame h frame s.res = .error c →
      engineStep s = { tick s with
        diagCause := c, dropped := s.dropped + 1, res := whole.drop (whole.length - 511),
        pos := s.pos + h.frameLength } ∧
      2 ≤ c.code.toNat ∧ c.code.toNat ≤ 9)

/-- 47_session_commands.md R673 (46_pcm_output.md R606, R607; 45_filterbank.md R590): the delivery of a decoded frame. The
state displayed is the whole frame of the step. FX is a parameter (assumption log 7). That the stored entries 1152 to 2303
of PCM_MEM, which the spec leaves unspecified after a single-channel delivery, stay is the model's choice (assumption log
3). -/
def Obligations.FrameDeliveryStep : Prop :=
  ∀ (s : State) (H : Word) (f : FrameIn),
    let h := headerOfWord H
    let whole := s.res ++ mainDataOf h (frameBytes s h)
    let out := fxFrame f s.syn0 s.syn1
    let chans := if h.nch = 1 ∧ s.ctrl.getLsbD 0 = false then 1 else 2
    decoding s → headerStage s = .frame H → decodeFrame h (frameBytes s h) s.res = .ok f →
    engineStep s = { tick s with
      syn0 := out.1.syn, syn1 := out.2.syn,
      pcmChannels := BitVec.ofNat 32 chans, pcmMem := interleave h.nch chans out s.pcmMem,
      pcmLength := 1152, pcmValid := true,
      header := H, sampleRate := BitVec.ofNat 32 h.fs, bitrate := BitVec.ofNat 32 h.kbps,
      srcChannels := BitVec.ofNat 32 h.nch,
      lock := (if s.lock = none then some ⟨h.fs, h.nch⟩ else s.lock),
      frames := s.frames + 1, isSnap := snapshotOf f, res := whole.drop (whole.length - 511),
      pos := s.pos + h.frameLength,
      engine := .idle, pending := .none, done := true, refillMax := 0, refillCount := 0 }

/-- 42_side_info_main_data.md R410, R411, R413, R414, R417, R419, 30_encoding.md R216, R222: how a frame decodes. Its
side information is the 17 or 32 bytes after the header and the CRC word, its main data the rest. Underflow comes first,
then the blocks' checks in order, then the overrun of the reservoir, then the parts in order, each decoded at its
part_start with its channel's scfsi and granule 0's scalefactors; the first part that fails gives the frame's cause, and
when none fails the parts are the frame's (the spec derives the causes' order in 60_exceptions.md R703). Part `k` is
granule `k / nch` of channel `k % nch`. That a block which fails both checks gives BAD_BLOCK_TYPE is the model's reading
(assumption log 24). -/
def Obligations.FrameCheckOrder : Prop :=
  ∀ (h : Header) (frame res : List Byte),
    let nch := if h.mode = 3#2 then 1 else 2
    let crc := if h.protection = 0#1 then 2 else 0
    let side := if nch = 1 then 17 else 32
    let bitsOf := fun l : List Byte =>
      (List.range (8 * l.length)).map fun n => (l.getD (n / 8) 0).getLsbD (7 - n % 8)
    let x := parseSideInfo nch (Cursor.at (bitsOf ((frame.drop (4 + crc)).take side)) 0)
    let whole := res ++ frame.drop (4 + crc + side)
    let sound := fun g : GranuleInfo => ¬ (g.windowSwitching = true ∧ g.blockType = 0) ∧ g.bigValues ≤ 288
    let blocks := if nch = 1 then [x.g0c0, x.g1c0] else [x.g0c0, x.g0c1, x.g1c0, x.g1c1]
    let start := 8 * (res.length - x.mainDataBegin)
    let lengths := fun l : List GranuleInfo => (l.map (fun g => g.part23Length)).sum
    let checked := x.mainDataBegin ≤ res.length ∧ (∀ b ∈ blocks, sound b) ∧
      start + lengths blocks ≤ 8 * whole.length
    let decoded := fun (p : Nat → Part) (k : Nat) =>
      decodePart h.samplingFrequency.toNat (k / nch) (if k % nch = 0 then x.scfsi0 else x.scfsi1)
        (if k < nch then noScalefac else (p (k - nch)).scf) (blocks.getD k default) (bitsOf whole)
        (start + lengths (blocks.take k))
    (decodeFrame h frame res = .error .reservoirUnderflow ↔ res.length < x.mainDataBegin) ∧
    (decodeFrame h frame res = .error .badBlockType ↔ x.mainDataBegin ≤ res.length ∧
      ∃ before g after, blocks = before ++ g :: after ∧ (∀ b ∈ before, sound b) ∧
        g.windowSwitching = true ∧ g.blockType = 0) ∧
    (decodeFrame h frame res = .error .bigValuesRange ↔ x.mainDataBegin ≤ res.length ∧
      ∃ before g after, blocks = before ++ g :: after ∧ (∀ b ∈ before, sound b) ∧
        ¬ (g.windowSwitching = true ∧ g.blockType = 0) ∧ 288 < g.bigValues) ∧
    (decodeFrame h frame res = .error .part23Overrun ↔ x.mainDataBegin ≤ res.length ∧ (∀ b ∈ blocks, sound b) ∧
      8 * whole.length < start + lengths blocks) ∧
    (∀ e ∈ [Cause.scalefacOverrun, .badTable, .badHuffcode, .huffmanOverrun],
      decodeFrame h frame res = .error e ↔ checked ∧ ∃ (p : Nat → Part) (n : Nat), n < blocks.length ∧
        (∀ k, k < n → decoded p k = .ok (p k)) ∧ decoded p n = .error e) ∧
    (∀ f, decodeFrame h frame res = .ok f ↔ checked ∧ ∃ p : Nat → Part,
      (∀ k, k < blocks.length → decoded p k = .ok (p k)) ∧
      f = ⟨h, x.mainDataBegin, ⟨x.scfsi0, p 0, p nch⟩, if nch = 1 then noChan else ⟨x.scfsi1, p 1, p 3⟩⟩)

/-- 42_side_info_main_data.md R410, R426, 43_huffman.md R450, R451, R453, R454, R456, R457, R459, R460, R462: when one
granule/channel fails and for which cause, the scalefactor check before the table check and the table check before any
pair (the spec derives this order in 60_exceptions.md R703); and otherwise which lines its pairs and quadruples write.
The lists `c` and `d` are the cursors before each pair and before each quadruple. A pair has no codeword when no codeword
of its table's code set stands at the cursor, bits past the end counting as 0. -/
def Obligations.PartCheckOrder : Prop :=
  (∀ c : Cursor, decodePair 0 c = .ok ((0, 0), c)) ∧
  (∀ (t : Nat) (c : Cursor), 0 < t → t < 32 → missingTable t = false →
    (decodePair t c = .error .badHuffcode ↔ ∀ k ∈ codeSet (codeSetNumber t), ∃ i, i < k.bits.length ∧
      c.rest.getD i false ≠ k.bits.getD i false)) ∧
  ∀ (freq gr scfsi start : Nat) (prev : Scalefac) (g : GranuleInfo) (bits : List Bool),
    let part := decodePart freq gr scfsi prev g bits start
    let r := readScalefac gr scfsi prev g (Cursor.at bits start)
    let part2 := r.2.pos - start
    let partEnd := start + g.part23Length
    let bv2 := 2 * g.bigValues
    let r1 := min (if g.windowSwitching = true then 36 else sfbL freq (min (g.region0Count + 1) 22)) bv2
    let r2 := min (if g.windowSwitching = true then 576
      else sfbL freq (min (g.region0Count + g.region1Count + 2) 22)) bv2
    let table := fun i : Nat => if i < r1 then g.tableSelect0 else if i < r2 then g.tableSelect1 else g.tableSelect2
    let missing := (0 < r1 ∧ (g.tableSelect0 = 4 ∨ g.tableSelect0 = 14)) ∨
      (r1 < r2 ∧ (g.tableSelect1 = 4 ∨ g.tableSelect1 = 14)) ∨
      (r2 < bv2 ∧ (g.tableSelect2 = 4 ∨ g.tableSelect2 = 14))
    let sound := part2 ≤ g.part23Length ∧ ¬ missing
    let pairs := fun (c : Nat → Cursor) (v : Nat → Int × Int) (n : Nat) => c 0 = r.2 ∧
      ∀ j, j < n → decodePair (table (2 * j)) (c j) = .ok (v j, c (j + 1)) ∧ (c (j + 1)).pos ≤ partEnd
    (part = .error .scalefacOverrun ↔ g.part23Length < part2) ∧
    (part = .error .badTable ↔ part2 ≤ g.part23Length ∧ missing) ∧
    (part = .error .huffmanOverrun ↔ sound ∧ ∃ c v n x e, pairs c v n ∧ n < g.bigValues ∧
      decodePair (table (2 * n)) (c n) = .ok (x, e) ∧ partEnd < e.pos) ∧
    (part = .error .badHuffcode ↔ sound ∧ ∃ c v n, pairs c v n ∧ n < g.bigValues ∧
      decodePair (table (2 * n)) (c n) = .error .badHuffcode) ∧
    (∀ e, part = .error e →
      e = .scalefacOverrun ∨ e = .badTable ∨ e = .huffmanOverrun ∨ e = .badHuffcode) ∧
    (∀ p, part = .ok p →
      let line := fun i : Nat => p.lines.toList.getD i 0
      sound ∧ p.info = g ∧ p.scf = r.1 ∧ ∃ (c d : Nat → Cursor) (v : Nat → Int × Int) (q : Nat → List Int) (m : Nat),
        pairs c v g.bigValues ∧
        (∀ j, j < g.bigValues → 2 * j + 1 < 576 → line (2 * j) = (v j).1 ∧ line (2 * j + 1) = (v j).2) ∧
        d 0 = c g.bigValues ∧
        (∀ j, j < m → bv2 + 4 * j ≤ 572 ∧ (d j).pos < partEnd ∧
          decodeQuad g.count1Table (d j) = (q j, d (j + 1)) ∧ (d (j + 1)).pos ≤ partEnd ∧
          ∀ e, e < 4 → line (bv2 + 4 * j + e) = (q j).getD e 0) ∧
        (572 < bv2 + 4 * m ∨ partEnd ≤ (d m).pos ∨ partEnd < (decodeQuad g.count1Table (d m)).2.pos) ∧
        ∀ i, bv2 + 4 * m ≤ i → i < 576 → line i = 0)

/-- 47_session_commands.md R672 to R674, from which the spec derives R685: an iteration that ends a PULL delivers
exactly one frame of 1152 samples per channel or returns EndOfStream; one that does not end it delivers nothing. That the
stored PCM_MEM, unspecified during a PULL, stays is the model's choice (assumption log 3). -/
def Obligations.OneFramePerPull : Prop :=
  ∀ s : State, decoding s →
    let t := engineStep s
    (t.engine = .idle →
      (t.done = true ∧ t.pending = .none ∧ t.pcmValid = true ∧ t.pcmLength = 1152 ∧ t.frames = s.frames + 1 ∧
        t.session = s.session ∧ t.eos = s.eos) ∨
      (t.done = true ∧ t.pending = .none ∧ t.pcmValid = false ∧ t.frames = s.frames ∧ t.session = .exhausted ∧
        t.eos = true)) ∧
    (t.engine ≠ .idle →
      t.frames = s.frames ∧ t.pcmValid = s.pcmValid ∧ t.pcmMem = s.pcmMem ∧ t.done = s.done ∧
      t.session = s.session ∧ t.eos = s.eos ∧ t.syn0 = s.syn0 ∧ t.syn1 = s.syn1)

/-- 47_session_commands.md R672, where the spec derives that a PULL terminates, and 70_reset_and_hazards.md R771: with
no host access in between, a PULL leaves BUSY within one more step than there are unconsumed bytes, and ends when end of
file was seen. That an empty list of inputs lets the engine step is the model's form (assumption log 5). -/
def Obligations.PullTerminates : Prop :=
  ∀ s : State, decoding s → s.pos ≤ s.avail → s.inputs = [] →
    ∃ n t, n ≤ s.avail - s.pos + 1 ∧ runs n s t ∧ t.engine ≠ .busy ∧ (s.eof = true → t.engine = .idle)

/-! ## Invariants -/

/-- The invariants hold after reset (10_state.md R120), with the capacity that the model's reset names (assumption log
4). -/
def Obligations.ResetMeetsInvariants : Prop := Inv State.reset

/-- Every step keeps the invariants (40_bitstream_reader.md R302 to R305, from which the spec derives R308; 10_state.md
R61, R63 to R72, R78, R90 to R92, R96; 47_session_commands.md R650). The guard region reads 0 for every GUARD_BYTES
(assumption log 25). -/
def Obligations.StepKeepsInvariants : Prop :=
  ∀ s t : State, Inv s → step s = .next t → Inv t

/-- 40_bitstream_reader.md R303 to R305, R308: the unconsumed input is kept in order. An engine step consumes a
beginning of it, one byte for a skip and none for a refill; an accepted response appends the staged bytes, and a read
error none. -/
def Obligations.UnconsumedInputKept : Prop :=
  (∀ s : State, decoding s → s.pos ≤ s.avail →
    let t := engineStep s
    ∃ consumed, unread s = consumed ++ unread t ∧ (t.engine = .needData → consumed = []) ∧
      (t.engine = .busy → t.dropped = s.dropped → consumed.length = 1)) ∧
  (∀ s : State, s.engine = .needData → s.pending = .pulling → s.pos ≤ s.avail →
    (∃ t, exec .refillDone s = .next t ∧ unread t = unread s ++ staged s) ∧
    (∃ t, exec .refillDoneErr s = .next t ∧ unread t = unread s)) ∧
  (∀ (s : State) (v : Word), s.engine = .needData → s.refillCount ≠ s.refillMax → s.ibuf.wf = true →
    s.pos ≤ s.avail →
    ∃ t, hostWrite 0x018 4 v s = .next t ∧ staged t = staged s ++ [v.extractLsb' 0 8] ∧ unread t = unread s)

/-- 45_filterbank.md R592: the histories are cleared by reset, OPEN and CLOSE and written by a delivery, and nothing
else writes them. -/
def Obligations.SynWritesOnly : Prop :=
  (∀ s t : State, step s = .next t → (t.syn0 ≠ s.syn0 ∨ t.syn1 ≠ s.syn1) →
    ((nextIsReset s = true ∨ nextCommand s = some .reset ∨ nextCommand s = some .openFile ∨
        nextCommand s = some .close) ∧ t.syn0 = zeroSyn ∧ t.syn1 = zeroSyn) ∨
    (decoding s ∧ t.engine = .idle ∧ t.pcmValid = true ∧ t.frames = s.frames + 1)) ∧
  (∀ s : State, ∃ t, exec .reset s = .next t ∧ t.syn0 = zeroSyn ∧ t.syn1 = zeroSyn) ∧
  (∀ s t : State, nextIsReset s = true → step s = .next t → t.syn0 = zeroSyn ∧ t.syn1 = zeroSyn) ∧
  (∀ s : State, s.engine = .idle → ∀ i ∈ [Instr.openFile, .close],
    ∃ t, exec i s = .next t ∧ t.syn0 = zeroSyn ∧ t.syn1 = zeroSyn)

/-- 47_session_commands.md R651: the only points where SESSION changes. -/
def Obligations.SessionChangesOnly : Prop :=
  ∀ s t : State, ProtocolInv s → step s = .next t → t.session ≠ s.session →
    (t.session = .streaming ∧ s.pending = .opening ∧ nextCommand s = some .refillDone) ∨
    (t.session = .uninitialized ∧ s.pending = .opening ∧ nextCommand s = some .refillDoneErr) ∨
    (t.session = .exhausted ∧ s.session = .streaming ∧ decoding s ∧ t.eos = true) ∨
    (t.session = .uninitialized ∧
      (nextCommand s = some .close ∨ nextCommand s = some .reset ∨ nextIsReset s = true))

/-- 10_state.md R73 to R76: how the counters change: OPEN and reset set them to 0, each event adds one, and nothing else
changes them. -/
def Obligations.CountersCountEvents : Prop :=
  (∀ s t : State, step s = .next t →
    ((nextCommand s = some .openFile ∧ s.engine = .idle) ∨ nextCommand s = some .reset ∨ nextIsReset s = true →
      t.frames = 0 ∧ t.resyncs = 0 ∧ t.dropped = 0 ∧ t.diagCause = .none) ∧
    (nextCommand s ≠ some .openFile → nextCommand s ≠ some .reset → nextIsReset s = false →
      (t.frames = s.frames ∨ (t.frames = s.frames + 1 ∧ decoding s ∧ t.pcmValid = true)) ∧
      ((t.resyncs = s.resyncs ∧ t.dropped = s.dropped ∧ t.diagCause = s.diagCause) ∨
        (t.resyncs = s.resyncs + 1 ∧ t.dropped = s.dropped ∧ t.diagCause = .syncSkip ∧ t.pos = s.pos + 1) ∨
        (t.resyncs = s.resyncs ∧ t.dropped = s.dropped + 1 ∧ 2 ≤ t.diagCause.code.toNat ∧ s.pos < t.pos)))) ∧
  (∀ s : State, decoding s →
    let t := engineStep s
    (headerStage s = .syncSkip → t.resyncs = s.resyncs + 1 ∧ t.diagCause = .syncSkip) ∧
    (∀ H c, headerStage s = .frame H →
      decodeFrame (headerOfWord H) (frameBytes s (headerOfWord H)) s.res = .error c →
      t.dropped = s.dropped + 1 ∧ t.diagCause = c) ∧
    (∀ H f, headerStage s = .frame H →
      decodeFrame (headerOfWord H) (frameBytes s (headerOfWord H)) s.res = .ok f → t.frames = s.frames + 1))

/-- 40_bitstream_reader.md R306: what sets and clears end of file, and that it stops the refill requests. -/
def Obligations.EndOfFileFlag : Prop :=
  (∀ s t : State, ReaderInv s → step s = .next t →
    (s.eof = false → t.eof = true →
      nextCommand s = some .refillDone ∨ nextCommand s = some .refillDoneErr) ∧
    (s.eof = true → t.eof = false →
      nextCommand s = some .reset ∨ nextCommand s = some .openFile ∨ nextCommand s = some .close ∨
      nextIsReset s = true)) ∧
  (∀ s : State, decoding s → s.eof = true → (engineStep s).engine ≠ .needData)

/-! ## What cannot be observed -/

/-- 40_bitstream_reader.md R309, 10_state.md R90: bytes of IBUF that are neither input nor staged never reach anything:
a step from two states that differ only there ends in two states that differ only there, with the same answer on the
bus. That this covers a read of an invalid PCM entry, which 70_reset_and_hazards.md R761 leaves unspecified, and an access
of a size that no rule names, is the model's choice: their free values depend on no such byte (assumption logs 1 and 8).
-/
def Obligations.HiddenBytesNeverObserved : Prop :=
  ∀ s t s' : State, SameInput s t → s.ibuf.wf = true → t.ibuf.wf = true → step s = .next s' →
    ∃ t', step t = .next t' ∧ SameInput s' t'

/-- 47_session_commands.md R660, from which the spec derives R688: after OPEN nothing of the old session is left in what
later output depends on. -/
def Obligations.OpenForgetsOldSession : Prop :=
  ∀ s t : State, s.engine = .idle → t.engine = .idle → t.ctrl = s.ctrl → t.dbgSel = s.dbgSel →
    t.ibufCap = s.ibufCap → t.inputs = s.inputs → t.busError = s.busError → t.epoch = s.epoch →
    ∃ s' t', exec .openFile s = .next s' ∧ exec .openFile t = .next t' ∧ SameRun s' t'

/-- 45_filterbank.md R590, R592, 10_state.md R120, from which the spec derives R593 and R687: two runs that agree on
what decoding depends on and take the same inputs keep agreeing, so they deliver the same PCM; and their accesses get
the same answers, but for a read of STATUS while an OPEN is pending, which shows the session it will replace. That the
same answers cover a read of an invalid PCM entry, on which 70_reset_and_hazards.md R761 lets no claim rest, and an access
of a size that no rule names, is the model's choice: their free values are the same in two runs of equal `epoch` (assumption
logs 1 and 8). -/
def Obligations.SameInputSamePcm : Prop :=
  ∀ s t s' : State, SameRun s t → s.ibuf.wf = true → t.ibuf.wf = true → ProtocolInv s → step s = .next s' →
    ∃ t', step t = .next t' ∧ SameRun s' t' ∧
      ((s.pending = .opening → ∀ es, s.inputs ≠ .read 0x00C 4 :: es) → t.busData = s.busData →
        t'.busData = s'.busData)

/-! ## Numbers -/

/-- 46_pcm_output.md R600: the PCM value of every synthesized sample, rounded, truncated by floor and saturated. -/
def Obligations.PcmConversion : Prop :=
  ∀ s : Word, (pcmOfSample s).toInt =
    (let u := (s.toInt + 4096) / 8192; if u < -32768 then -32768 else if 32767 < u then 32767 else u)

/-- 46_pcm_output.md R606, R607: what the host reads of a delivered frame's PCM. FORCE_STEREO is that of the state
before the delivery step. That the stored entries 1152 to 2303, which the spec leaves unspecified after a single-channel
delivery, stay is the model's choice (assumption log 3). -/
def Obligations.DeliveredPcmLayout : Prop :=
  ∀ (s : State) (H : Word) (f : FrameIn),
    let h := headerOfWord H
    let out := fxFrame f s.syn0 s.syn1
    let t := engineStep s
    let first := fun n : Nat => pcmOfSample (out.1.samples.toList.getD n 0)
    let second := fun n : Nat => pcmOfSample (out.2.samples.toList.getD n 0)
    decoding s → headerStage s = .frame H → decodeFrame h (frameBytes s h) s.res = .ok f →
    (h.nch = 1 → s.ctrl.getLsbD 0 = false →
      t.pcmChannels = 1 ∧ (∀ n, n < 1152 → pcmEntry t n = first n) ∧
      ∀ k, 1152 ≤ k → k < 2304 → t.pcmMem.toList.getD k 0 = s.pcmMem.toList.getD k 0) ∧
    (h.nch = 1 → s.ctrl.getLsbD 0 = true →
      t.pcmChannels = 2 ∧ ∀ n, n < 1152 → pcmEntry t (2 * n) = first n ∧ pcmEntry t (2 * n + 1) = first n) ∧
    (h.nch = 2 →
      t.pcmChannels = 2 ∧ ∀ n, n < 1152 → pcmEntry t (2 * n) = first n ∧ pcmEntry t (2 * n + 1) = second n)

/-- 43_huffman.md R466, 10_state.md R79, R96, R120: what DBG_DATA reads after a delivery, for every DBG_SEL; in every
step, nothing but a delivery, OPEN and reset writes the snapshot, and OPEN and reset clear it. -/
def Obligations.SnapshotShowsFrame : Prop :=
  (∀ (s : State) (H : Word) (f : FrameIn) (sel : Word),
    let h := headerOfWord H
    let t := engineStep s
    let ch := (sel.extractLsb' 10 1).toNat
    let gr := (sel.extractLsb' 11 1).toNat
    let line := (sel.extractLsb' 0 10).toNat
    decoding s → headerStage s = .frame H → decodeFrame h (frameBytes s h) s.res = .ok f →
    (line < 576 → ch < h.nch →
      (dbgData { t with dbgSel := sel }).toInt = (framePart f gr ch).lines.toList.getD line 0) ∧
    ((576 ≤ line ∨ h.nch ≤ ch) → dbgData { t with dbgSel := sel } = 0)) ∧
  (∀ s : State, decoding s → (engineStep s).frames = s.frames → (engineStep s).isSnap = s.isSnap) ∧
  (∀ s t : State, step s = .next t → t.isSnap ≠ s.isSnap →
    ((nextIsReset s = true ∨ nextCommand s = some .reset ∨ nextCommand s = some .openFile) ∧ t.isSnap = zeroSnap) ∨
    (decoding s ∧ t.engine = .idle ∧ t.pcmValid = true ∧ t.frames = s.frames + 1)) ∧
  (∀ s t : State, nextIsReset s = true → step s = .next t → t.isSnap = zeroSnap) ∧
  (∀ s : State, ∃ t, exec .reset s = .next t ∧ t.isSnap = zeroSnap) ∧
  (∀ s : State, s.engine = .idle → ∃ t, exec .openFile s = .next t ∧ t.isSnap = zeroSnap)

/-- 43_huffman.md R458, 10_state.md R96, 30_encoding.md R217 to R219, R221: every value that frame decoding gives lies in its
range, the quantized values in -8206..8206 (the spec derives this bound in R452). -/
def Obligations.DecodedValuesInRange : Prop :=
  ∀ (h : Header) (frame res : List Byte) (f : FrameIn), headerValid h = true → freeFormat h = false →
    decodeFrame h frame res = .ok f → frameFits f ∧ f.header = h

/-- 42_side_info_main_data.md R422 to R425, R427, 30_encoding.md R221, 10_state.md R97: how many bits the scalefactors
take in each layout, the value read for each band and window, the copies that scfsi asks for, and the entries that each
layout does not transmit. The list `d` holds the cursors between the scalefactors. A read of `n` bits is the number whose
most significant bit is the first one read, bits past the end counting as 0 (00_scope.md R11, R416). -/
def Obligations.ScalefactorReads : Prop :=
  ∀ (gr scfsi : Nat) (prev : Scalefac) (g : GranuleInfo) (c : Cursor),
    let r := readScalefac gr scfsi prev g c
    let s1 := [0, 0, 0, 0, 3, 1, 1, 1, 2, 2, 2, 3, 3, 3, 4, 4].getD g.scalefacCompress 0
    let s2 := [0, 1, 2, 3, 0, 1, 2, 3, 1, 2, 3, 1, 2, 3, 2, 3].getD g.scalefacCompress 0
    let copied := fun band : Nat => decide (gr = 1) && scfsi.testBit (3 - band)
    let band := fun sfb : Nat => if sfb ≤ 5 then 0 else if sfb ≤ 10 then 1 else if sfb ≤ 15 then 2 else 3
    (∀ n, c.getBits n =
      ((List.range n).foldl (fun v k => 2 * v + (c.rest.getD k false).toNat) 0, ⟨c.pos + n, c.rest.drop n⟩)) ∧
    (g.blockType = 2 → g.mixedBlock = false → r.2.pos = c.pos + (18 * s1 + 18 * s2)) ∧
    (g.blockType = 2 → g.mixedBlock = true → r.2.pos = c.pos + (17 * s1 + 18 * s2)) ∧
    (g.blockType ≠ 2 →
      r.2.pos = c.pos + ((if copied 0 then 0 else 6 * s1) + (if copied 1 then 0 else 5 * s1) +
        (if copied 2 then 0 else 5 * s2) + (if copied 3 then 0 else 5 * s2))) ∧
    (g.blockType ≠ 2 → ∃ d : Nat → Cursor, d 0 = c ∧ d 21 = r.2 ∧ ∀ sfb, sfb < 21 →
      if copied (band sfb) then Scalefac.longAt r.1 sfb = Scalefac.longAt prev sfb ∧ d (sfb + 1) = d sfb
      else (d sfb).getBits (if sfb ≤ 10 then s1 else s2) = (Scalefac.longAt r.1 sfb, d (sfb + 1))) ∧
    (g.blockType = 2 → g.mixedBlock = false → ∃ d : Nat → Cursor, d 0 = c ∧ d 36 = r.2 ∧
      ∀ sfb w, sfb < 12 → w < 3 →
        (d (3 * sfb + w)).getBits (if sfb ≤ 5 then s1 else s2) =
          (Scalefac.shortAt r.1 sfb w, d (3 * sfb + w + 1))) ∧
    (g.blockType = 2 → g.mixedBlock = true → ∃ d : Nat → Cursor, d 0 = c ∧ d 35 = r.2 ∧
      (∀ sfb, sfb < 8 → (d sfb).getBits s1 = (Scalefac.longAt r.1 sfb, d (sfb + 1))) ∧
      ∀ sfb w, sfb < 9 → w < 3 →
        (d (8 + 3 * sfb + w)).getBits (if sfb + 3 ≤ 5 then s1 else s2) =
          (Scalefac.shortAt r.1 (sfb + 3) w, d (8 + 3 * sfb + w + 1))) ∧
    Scalefac.longAt r.1 21 = 0 ∧ (∀ w, w < 3 → Scalefac.shortAt r.1 12 w = 0) ∧
    (g.blockType ≠ 2 → ∀ k, k < 39 → r.1.short.toList.getD k 0 = 0) ∧
    (g.blockType = 2 → g.mixedBlock = false → ∀ s, s < 22 → Scalefac.longAt r.1 s = 0) ∧
    (g.blockType = 2 → g.mixedBlock = true →
      (∀ k, k < 9 → r.1.short.toList.getD k 0 = 0) ∧ ∀ s, 8 ≤ s → s < 22 → Scalefac.longAt r.1 s = 0)

/-- 42_side_info_main_data.md R421: every line of a granule lies in the one place that its layout gives it. The bounds of
the bands are those of R420. -/
def Obligations.LineLayout : Prop :=
  (∀ freq, freq < 3 →
    some ((List.range 23).map (sfbL freq)) =
      [[0, 4, 8, 12, 16, 20, 24, 30, 36, 44, 52, 62, 74, 90, 110, 134, 162, 196, 238, 288, 342, 418, 576],
       [0, 4, 8, 12, 16, 20, 24, 30, 36, 42, 50, 60, 72, 88, 106, 128, 156, 190, 230, 276, 330, 384, 576],
       [0, 4, 8, 12, 16, 20, 24, 30, 36, 44, 54, 66, 82, 102, 126, 156, 194, 240, 296, 364, 448, 550, 576]][freq]? ∧
    some ((List.range 14).map (sfbS freq)) =
      [[0, 4, 8, 12, 16, 22, 30, 40, 52, 66, 84, 106, 136, 192],
       [0, 4, 8, 12, 16, 22, 28, 38, 50, 64, 80, 100, 126, 192],
       [0, 4, 8, 12, 16, 22, 30, 42, 58, 78, 104, 138, 180, 192]][freq]? ∧
    ∀ s, shortWidth freq s = sfbS freq (s + 1) - sfbS freq s) ∧
  ∀ (freq i : Nat) (g : GranuleInfo), freq < 3 → i < 576 →
    sfbL freq 8 = 36 ∧ 3 * sfbS freq 3 = 36 ∧
    (g.blockType ≠ 2 →
      ∃ s, linePlace freq g i = .long s ∧ s < 22 ∧ sfbL freq s ≤ i ∧ i < sfbL freq (s + 1)) ∧
    (g.blockType = 2 → g.mixedBlock = true → i < 36 →
      ∃ s, linePlace freq g i = .long s ∧ s < 8 ∧ sfbL freq s ≤ i ∧ i < sfbL freq (s + 1)) ∧
    (g.blockType = 2 → (g.mixedBlock = false ∨ 36 ≤ i) →
      ∃ s w f, linePlace freq g i = .short s w f ∧ s < 13 ∧ w < 3 ∧ f < shortWidth freq s ∧
        i = 3 * sfbS freq s + w * shortWidth freq s + f ∧ (g.mixedBlock = true → 3 ≤ s))

/-- 43_huffman.md R456 to R462, from which the spec derives R464: the quantized values of a part depend on no bit at or
beyond 47 past the part's end. Bits past the end of the reservoir count as 0. -/
def Obligations.HuffmanReadsLocally : Prop :=
  ∀ (freq partEnd p : Nat) (g : GranuleInfo) (a b : List Bool),
    (∀ i, i < partEnd - p + (19 + 13 + 1 + 13 + 1) → a.getD i false = b.getD i false) →
    decodeSpectrum freq g partEnd ⟨p, a⟩ = decodeSpectrum freq g partEnd ⟨p, b⟩

/-- 45_filterbank.md R590, 30_encoding.md R211, R214, R215, 42_side_info_main_data.md R401, R419, 44_requantize_stereo.md
R503: the block's FX has the properties F1 to F5 and ignores the fields that the block ignores; so does the reference
instance FX_ideal, whose samples lie within 1/2 of the reference's inside the range. The block's FX is a parameter held to
these properties (assumption log 7); FX_ideal is not run by the step (assumption log 15). -/
def Obligations.FxProperties : Prop :=
  FxProps zeroSyn fxFrame ∧
  ∀ D : Nat → ℝ, FxProps RefSyn.zero (fxIdeal D) ∧ FxWithinRange RefSyn.zero (fxIdeal D) D (1 / 2)

/-- 45_filterbank.md R590 (F2), 46_pcm_output.md R600, test vectors FB-1 and FB-2: a frame whose quantized values are
all 0, delivered from zero histories, gives PCM all 0 and leaves the histories zero. -/
def Obligations.SilentFrameGivesSilence : Prop :=
  ∀ (s : State) (H : Word) (f : FrameIn),
    let h := headerOfWord H
    let t := engineStep s
    decoding s → headerStage s = .frame H → decodeFrame h (frameBytes s h) s.res = .ok f →
    (∀ gr ch, ∀ v ∈ (framePart f gr ch).lines.toList, v = 0) → s.syn0 = zeroSyn → s.syn1 = zeroSyn →
    t.syn0 = zeroSyn ∧ t.syn1 = zeroSyn ∧ ∀ k, k < t.pcmLength.toNat * t.pcmChannels.toNat → pcmEntry t k = 0

/-- 45_filterbank.md R550 to R560: the reference filterbank, over any ring. The lines `out` are reordered (R551) and `X`
alias-reduced (R552); `z` is each subband's windowed block (R554 to R556); `sub` the samples after the overlap-add and the
frequency inversion (R557, R558); `V t` the history after `t` time slots and the PCM the windowed sums over it (R560).
Zeros with a zero history give zeros and a zero history (the spec derives R585 from these); a channel that the frame does
not have keeps its history; and the coefficients of the reference are the real numbers that R553 to R556 and R560 give.
The reference is not run by the step (assumption log 15). -/
def Obligations.ReferenceKeepsZero : Prop :=
  (∀ (R : Type) [CommRing R] (C : Coefs R) (f : FrameIn) (ch : Nat),
    (∀ gr n, frameSpectrum C f gr ch n = 0) →
    (∀ n, framePcm C f ch RefSyn.zero n = 0) ∧ frameSyn C f ch RefSyn.zero = RefSyn.zero) ∧
  (∀ (R : Type) [CommRing R] (C : Coefs R) (f : FrameIn) (ch : Nat) (y : RefSyn R),
    f.header.nch ≤ ch → frameSyn C f ch y = y) ∧
  (∀ (R : Type) [CommRing R] (C : Coefs R) (f : FrameIn) (ch : Nat) (y : RefSyn R),
    f.header.samplingFrequency ≠ 3#2 → ch < f.header.nch →
    let freq := f.header.samplingFrequency.toNat
    let width := fun s : Nat => sfbS freq (s + 1) - sfbS freq s
    ∃ (out X : Nat → Nat → R) (z sub : Nat → Nat → Nat → R) (V : Nat → Nat → R),
      (∀ gr, gr < 2 →
        let g := (framePart f gr ch).info
        let x := spectrum C f.header (framePart f gr 0) (framePart f gr 1) ch
        let limit := if g.blockType = 2 then (if g.mixedBlock = true then 1 else 0) else 31
        (∀ i, i < 576 → (g.blockType = 2 → g.mixedBlock = true ∧ i < 36) → out gr i = x i) ∧
        (g.blockType = 2 → ∀ s w j, s < 13 → w < 3 → j < width s → (g.mixedBlock = true → 3 ≤ s) →
          out gr (3 * sfbS freq s + 3 * j + w) = x (3 * sfbS freq s + w * width s + j)) ∧
        (∀ sb i, 1 ≤ sb → sb ≤ limit → i < 8 →
          let a := out gr (18 * sb - 1 - i)
          let b := out gr (18 * sb + i)
          X gr (18 * sb - 1 - i) = a * C.cs i - b * C.ca i ∧ X gr (18 * sb + i) = b * C.cs i + a * C.ca i) ∧
        (∀ n, n < 576 →
          (∀ sb i, 1 ≤ sb → sb ≤ limit → i < 8 → n ≠ 18 * sb - 1 - i ∧ n ≠ 18 * sb + i) → X gr n = out gr n) ∧
        (∀ sb n, sb < 32 → n < 36 → z gr sb n =
          if g.blockType = 2 ∧ (g.mixedBlock = true → 2 ≤ sb) then
            ∑ w ∈ Finset.range 3, if 6 + 6 * w ≤ n ∧ n < 18 + 6 * w then
              (∑ k ∈ Finset.range 6, X gr (18 * sb + 3 * k + w) * C.shortCos (n - (6 + 6 * w)) k) *
                C.winShort (n - (6 + 6 * w))
            else 0
          else
            (∑ k ∈ Finset.range 18, X gr (18 * sb + k) * C.longCos n k) *
              C.win (if g.blockType = 2 then 0 else g.blockType) n) ∧
        (∀ sb i, sb < 32 → i < 18 →
          let v := z gr sb i + (if gr = 0 then y.ovl sb i else z 0 sb (18 + i))
          sub gr sb i = if sb % 2 = 1 ∧ i % 2 = 1 then -v else v) ∧
        (∀ t, t < 18 →
          let after := V (18 * gr + t + 1)
          (∀ i, i < 1024 → after i =
            if i < 64 then ∑ k ∈ Finset.range 32, C.polyCos i k * sub gr k t else V (18 * gr + t) (i - 64)) ∧
          (∀ j, j < 32 → framePcm C f ch y (576 * gr + 32 * t + j) =
            ∑ i ∈ Finset.range 8, (after (128 * i + j) * C.synthD (64 * i + j) +
              after (128 * i + 96 + j) * C.synthD (64 * i + 32 + j))))) ∧
      (∀ i, i < 1024 → V 0 i = y.v i ∧ (frameSyn C f ch y).v i = V 36 i) ∧
      (∀ sb i, sb < 32 → i < 18 → (frameSyn C f ch y).ovl sb i = z 1 sb (18 + i))) ∧
  ∀ (D : Nat → ℝ) (i k : Nat),
    let C := realCoefs D
    let c := ([-0.6, -0.535, -0.33, -0.185, -0.095, -0.041, -0.0142, -0.0037] : List ℝ).getD i 0
    let long := Real.sin (Real.pi / 36 * ((i : ℝ) + 0.5))
    (i < 8 → C.cs i = 1 / Real.sqrt (1 + c ^ 2) ∧ C.ca i = c / Real.sqrt (1 + c ^ 2)) ∧
    C.longCos i k = Real.cos (Real.pi / 72 * (2 * i + 19) * (2 * k + 1)) ∧
    C.shortCos i k = Real.cos (Real.pi / 24 * (2 * i + 7) * (2 * k + 1)) ∧
    C.polyCos i k = Real.cos ((16 + i) * (2 * k + 1) * Real.pi / 64) ∧
    (i < 12 → C.winShort i = Real.sin (Real.pi / 12 * ((i : ℝ) + 0.5))) ∧
    (i < 36 → C.win 0 i = long ∧
      C.win 1 i = (if i < 18 then long else if i < 24 then 1
        else if i < 30 then Real.sin (Real.pi / 12 * ((i : ℝ) - 18 + 0.5)) else 0) ∧
      C.win 3 i = (if i < 6 then 0 else if i < 12 then Real.sin (Real.pi / 12 * ((i : ℝ) - 6 + 0.5))
        else if i < 18 then 1 else long)) ∧
    C.synthD = D

/-- 44_requantize_stereo.md R501 to R503: the reference's requantisation, in the products of powers that the rules give.
A single-channel frame's spectrum is that of its one channel (R500, R505). The reference is not run by the step
(assumption log 15). -/
def Obligations.RequantisationFormula : Prop :=
  pretab = [0, 0, 0, 0, 0, 0, 0, 0, 0, 0, 0, 1, 1, 1, 1, 2, 2, 3, 3, 3, 2, 0] ∧
  (∀ (D : Nat → ℝ) (h : Header) (p0 p1 : Part) (i : Nat), h.nch = 1 →
    spectrum (realCoefs D) h p0 p1 0 i = requantize (realCoefs D) h.samplingFrequency.toNat p0 i) ∧
  ∀ (D : Nat → ℝ) (freq i : Nat) (p : Part),
    let v : Int := p.lines.toList.getD i 0
    let gg : ℝ := p.info.globalGain
    let mult : ℝ := if p.info.scalefacScale then 1 else 0.5
    let pow43 : ℝ := (Int.sign v : ℝ) * |(v : ℝ)| ^ ((4 : ℝ) / 3)
    (∀ s, linePlace freq p.info i = .long s →
      requantize (realCoefs D) freq p i =
        pow43 * (2 : ℝ) ^ ((gg - 210) / 4) *
          (2 : ℝ) ^ (-(mult * ((Scalefac.longAt p.scf s : ℝ) +
            (if p.info.preflag then ((pretab.getD s 0 : Nat) : ℝ) else 0)))) ) ∧
    (∀ s w f, linePlace freq p.info i = .short s w f →
      requantize (realCoefs D) freq p i =
        pow43 * (2 : ℝ) ^ ((gg - 210 - 8 * (subblockGain p.info w : ℝ)) / 4) *
          (2 : ℝ) ^ (-(mult * (Scalefac.shortAt p.scf s w : ℝ))))

/-- 44_requantize_stereo.md R520 to R524, from which the spec derives R526: a frame that is not joint stereo keeps its
values; an intensity line, in each layout of channel 1 and at each position 0 to 6, takes channel 0's value by the two
shares; every other line is mid and side where ms_stereo asks for it and is kept where it does not. A band is an intensity
band when channel 1 is 0 from its first line on, in a short band from its lowest frequency of its window on (assumption
log 16). The reference is not run by the step (assumption log 15). -/
def Obligations.JointStereoReference : Prop :=
  ∀ (D : Nat → ℝ) (h : Header) (p0 p1 : Part) (i : Nat), h.nch = 2 → i < 576 →
    let C := realCoefs D
    let freq := h.samplingFrequency.toNat
    let x0 := requantize C freq p0 i
    let x1 := requantize C freq p1 i
    let y0 := spectrum C h p0 p1 0 i
    let y1 := spectrum C h p0 p1 1 i
    let zero := fun k : Nat => p1.lines.toList.getD k 0 = 0
    let band : Prop := match linePlace freq p1.info i with
      | .long s => p1.info.blockType ≠ 2 ∧ ∀ k, sfbL freq s ≤ k → k < 576 → zero k
      | .short s w _ => ∀ k s' f', k < 576 → linePlace freq p1.info k = .short s' w f' →
          sfbS freq s ≤ sfbS freq s' + f' → zero k
    let pos : Nat := match linePlace freq p1.info i with
      | .long s => Scalefac.longAt p1.scf (if s = 21 then 20 else s)
      | .short s w _ => Scalefac.shortAt p1.scf (if s = 12 then 11 else s) w
    let intensity : Prop := h.modeExtension.getLsbD 0 = true ∧ band ∧ pos ≤ 6
    let a : ℝ := Real.sin (pos * Real.pi / 12)
    let b : ℝ := Real.cos (pos * Real.pi / 12)
    (h.joint = false ∨ h.modeExtension = 0#2 → y0 = x0 ∧ y1 = x1) ∧
    (h.joint = true → h.modeExtension = 2#2 → y0 = (x0 + x1) / Real.sqrt 2 ∧ y1 = (x0 - x1) / Real.sqrt 2) ∧
    (h.joint = true → h.modeExtension.getLsbD 0 = true → ¬ (p1.info.blockType = 2 ∧ p1.info.mixedBlock = true) →
      (∀ v ∈ p1.lines.toList, v = 0) → (∀ k ∈ p1.scf.long.toList, k = 0) → (∀ k ∈ p1.scf.short.toList, k = 0) →
      y0 = 0 ∧ y1 = x0) ∧
    (h.samplingFrequency ≠ 3#2 → h.joint = true →
      (intensity → y0 = x0 * (a / (a + b)) ∧ y1 = x0 * (b / (a + b))) ∧
      (¬ intensity → h.modeExtension.getLsbD 1 = true →
        y0 = (x0 + x1) / Real.sqrt 2 ∧ y1 = (x0 - x1) / Real.sqrt 2) ∧
      (¬ intensity → h.modeExtension.getLsbD 1 = false → y0 = x0 ∧ y1 = x1))

end Statements
end

