-- ==== Sys2Proof/Laws/State.lean ====
section
/-! SUPPORT. One lemma for each field of each shared update of the state: what the field is after it. -/

namespace Sys2Proof.Machine

@[simp] theorem raiseHostError_ctrl (e : HostErr) (s : State) : (raiseHostError e s).ctrl = s.ctrl := rfl
@[simp] theorem raiseHostError_engine (e : HostErr) (s : State) : (raiseHostError e s).engine = s.engine := rfl
@[simp] theorem raiseHostError_session (e : HostErr) (s : State) : (raiseHostError e s).session = s.session := rfl
@[simp] theorem raiseHostError_pcmValid (e : HostErr) (s : State) : (raiseHostError e s).pcmValid = s.pcmValid := rfl
@[simp] theorem raiseHostError_eos (e : HostErr) (s : State) : (raiseHostError e s).eos = s.eos := rfl
@[simp] theorem raiseHostError_done (e : HostErr) (s : State) : (raiseHostError e s).done = s.done := rfl
@[simp] theorem raiseHostError_err (e : HostErr) (s : State) : (raiseHostError e s).err = e := rfl
@[simp] theorem raiseHostError_pending (e : HostErr) (s : State) : (raiseHostError e s).pending = s.pending := rfl
@[simp] theorem raiseHostError_refillMax (e : HostErr) (s : State) : (raiseHostError e s).refillMax = s.refillMax := rfl
@[simp] theorem raiseHostError_refillCount (e : HostErr) (s : State) :
    (raiseHostError e s).refillCount = s.refillCount := rfl
@[simp] theorem raiseHostError_header (e : HostErr) (s : State) : (raiseHostError e s).header = s.header := rfl
@[simp] theorem raiseHostError_sampleRate (e : HostErr) (s : State) :
    (raiseHostError e s).sampleRate = s.sampleRate := rfl
@[simp] theorem raiseHostError_bitrate (e : HostErr) (s : State) : (raiseHostError e s).bitrate = s.bitrate := rfl
@[simp] theorem raiseHostError_srcChannels (e : HostErr) (s : State) :
    (raiseHostError e s).srcChannels = s.srcChannels := rfl
@[simp] theorem raiseHostError_pcmLength (e : HostErr) (s : State) : (raiseHostError e s).pcmLength = s.pcmLength := rfl
@[simp] theorem raiseHostError_pcmChannels (e : HostErr) (s : State) :
    (raiseHostError e s).pcmChannels = s.pcmChannels := rfl
@[simp] theorem raiseHostError_frames (e : HostErr) (s : State) : (raiseHostError e s).frames = s.frames := rfl
@[simp] theorem raiseHostError_resyncs (e : HostErr) (s : State) : (raiseHostError e s).resyncs = s.resyncs := rfl
@[simp] theorem raiseHostError_dropped (e : HostErr) (s : State) : (raiseHostError e s).dropped = s.dropped := rfl
@[simp] theorem raiseHostError_diagCause (e : HostErr) (s : State) : (raiseHostError e s).diagCause = s.diagCause := rfl
@[simp] theorem raiseHostError_dbgSel (e : HostErr) (s : State) : (raiseHostError e s).dbgSel = s.dbgSel := rfl
@[simp] theorem raiseHostError_ibuf (e : HostErr) (s : State) : (raiseHostError e s).ibuf = s.ibuf := rfl
@[simp] theorem raiseHostError_avail (e : HostErr) (s : State) : (raiseHostError e s).avail = s.avail := rfl
@[simp] theorem raiseHostError_pos (e : HostErr) (s : State) : (raiseHostError e s).pos = s.pos := rfl
@[simp] theorem raiseHostError_eof (e : HostErr) (s : State) : (raiseHostError e s).eof = s.eof := rfl
@[simp] theorem raiseHostError_refillErr (e : HostErr) (s : State) : (raiseHostError e s).refillErr = s.refillErr := rfl
@[simp] theorem raiseHostError_res (e : HostErr) (s : State) : (raiseHostError e s).res = s.res := rfl
@[simp] theorem raiseHostError_lock (e : HostErr) (s : State) : (raiseHostError e s).lock = s.lock := rfl
@[simp] theorem raiseHostError_syn0 (e : HostErr) (s : State) : (raiseHostError e s).syn0 = s.syn0 := rfl
@[simp] theorem raiseHostError_syn1 (e : HostErr) (s : State) : (raiseHostError e s).syn1 = s.syn1 := rfl
@[simp] theorem raiseHostError_pcmMem (e : HostErr) (s : State) : (raiseHostError e s).pcmMem = s.pcmMem := rfl
@[simp] theorem raiseHostError_isSnap (e : HostErr) (s : State) : (raiseHostError e s).isSnap = s.isSnap := rfl
@[simp] theorem raiseHostError_ibufCap (e : HostErr) (s : State) : (raiseHostError e s).ibufCap = s.ibufCap := rfl
@[simp] theorem raiseHostError_inputs (e : HostErr) (s : State) : (raiseHostError e s).inputs = s.inputs := rfl
@[simp] theorem raiseHostError_busData (e : HostErr) (s : State) : (raiseHostError e s).busData = s.busData := rfl
@[simp] theorem raiseHostError_busError (e : HostErr) (s : State) : (raiseHostError e s).busError = s.busError := rfl
@[simp] theorem raiseHostError_epoch (e : HostErr) (s : State) : (raiseHostError e s).epoch = s.epoch := rfl

@[simp] theorem accept_ctrl (s : State) : (accept s).ctrl = s.ctrl := rfl
@[simp] theorem accept_engine (s : State) : (accept s).engine = s.engine := rfl
@[simp] theorem accept_session (s : State) : (accept s).session = s.session := rfl
@[simp] theorem accept_pcmValid (s : State) : (accept s).pcmValid = s.pcmValid := rfl
@[simp] theorem accept_eos (s : State) : (accept s).eos = s.eos := rfl
@[simp] theorem accept_done (s : State) : (accept s).done = false := rfl
@[simp] theorem accept_err (s : State) : (accept s).err = .none := rfl
@[simp] theorem accept_pending (s : State) : (accept s).pending = s.pending := rfl
@[simp] theorem accept_refillMax (s : State) : (accept s).refillMax = s.refillMax := rfl
@[simp] theorem accept_refillCount (s : State) : (accept s).refillCount = s.refillCount := rfl
@[simp] theorem accept_header (s : State) : (accept s).header = s.header := rfl
@[simp] theorem accept_sampleRate (s : State) : (accept s).sampleRate = s.sampleRate := rfl
@[simp] theorem accept_bitrate (s : State) : (accept s).bitrate = s.bitrate := rfl
@[simp] theorem accept_srcChannels (s : State) : (accept s).srcChannels = s.srcChannels := rfl
@[simp] theorem accept_pcmLength (s : State) : (accept s).pcmLength = s.pcmLength := rfl
@[simp] theorem accept_pcmChannels (s : State) : (accept s).pcmChannels = s.pcmChannels := rfl
@[simp] theorem accept_frames (s : State) : (accept s).frames = s.frames := rfl
@[simp] theorem accept_resyncs (s : State) : (accept s).resyncs = s.resyncs := rfl
@[simp] theorem accept_dropped (s : State) : (accept s).dropped = s.dropped := rfl
@[simp] theorem accept_diagCause (s : State) : (accept s).diagCause = s.diagCause := rfl
@[simp] theorem accept_dbgSel (s : State) : (accept s).dbgSel = s.dbgSel := rfl
@[simp] theorem accept_ibuf (s : State) : (accept s).ibuf = s.ibuf := rfl
@[simp] theorem accept_avail (s : State) : (accept s).avail = s.avail := rfl
@[simp] theorem accept_pos (s : State) : (accept s).pos = s.pos := rfl
@[simp] theorem accept_eof (s : State) : (accept s).eof = s.eof := rfl
@[simp] theorem accept_refillErr (s : State) : (accept s).refillErr = s.refillErr := rfl
@[simp] theorem accept_res (s : State) : (accept s).res = s.res := rfl
@[simp] theorem accept_lock (s : State) : (accept s).lock = s.lock := rfl
@[simp] theorem accept_syn0 (s : State) : (accept s).syn0 = s.syn0 := rfl
@[simp] theorem accept_syn1 (s : State) : (accept s).syn1 = s.syn1 := rfl
@[simp] theorem accept_pcmMem (s : State) : (accept s).pcmMem = s.pcmMem := rfl
@[simp] theorem accept_isSnap (s : State) : (accept s).isSnap = s.isSnap := rfl
@[simp] theorem accept_ibufCap (s : State) : (accept s).ibufCap = s.ibufCap := rfl
@[simp] theorem accept_inputs (s : State) : (accept s).inputs = s.inputs := rfl
@[simp] theorem accept_busData (s : State) : (accept s).busData = s.busData := rfl
@[simp] theorem accept_busError (s : State) : (accept s).busError = s.busError := rfl
@[simp] theorem accept_epoch (s : State) : (accept s).epoch = s.epoch := rfl

@[simp] theorem complete_ctrl (s : State) : (complete s).ctrl = s.ctrl := rfl
@[simp] theorem complete_engine (s : State) : (complete s).engine = .idle := rfl
@[simp] theorem complete_session (s : State) : (complete s).session = s.session := rfl
@[simp] theorem complete_pcmValid (s : State) : (complete s).pcmValid = s.pcmValid := rfl
@[simp] theorem complete_eos (s : State) : (complete s).eos = s.eos := rfl
@[simp] theorem complete_done (s : State) : (complete s).done = true := rfl
@[simp] theorem complete_err (s : State) : (complete s).err = s.err := rfl
@[simp] theorem complete_pending (s : State) : (complete s).pending = .none := rfl
@[simp] theorem complete_refillMax (s : State) : (complete s).refillMax = 0 := rfl
@[simp] theorem complete_refillCount (s : State) : (complete s).refillCount = 0 := rfl
@[simp] theorem complete_header (s : State) : (complete s).header = s.header := rfl
@[simp] theorem complete_sampleRate (s : State) : (complete s).sampleRate = s.sampleRate := rfl
@[simp] theorem complete_bitrate (s : State) : (complete s).bitrate = s.bitrate := rfl
@[simp] theorem complete_srcChannels (s : State) : (complete s).srcChannels = s.srcChannels := rfl
@[simp] theorem complete_pcmLength (s : State) : (complete s).pcmLength = s.pcmLength := rfl
@[simp] theorem complete_pcmChannels (s : State) : (complete s).pcmChannels = s.pcmChannels := rfl
@[simp] theorem complete_frames (s : State) : (complete s).frames = s.frames := rfl
@[simp] theorem complete_resyncs (s : State) : (complete s).resyncs = s.resyncs := rfl
@[simp] theorem complete_dropped (s : State) : (complete s).dropped = s.dropped := rfl
@[simp] theorem complete_diagCause (s : State) : (complete s).diagCause = s.diagCause := rfl
@[simp] theorem complete_dbgSel (s : State) : (complete s).dbgSel = s.dbgSel := rfl
@[simp] theorem complete_ibuf (s : State) : (complete s).ibuf = s.ibuf := rfl
@[simp] theorem complete_avail (s : State) : (complete s).avail = s.avail := rfl
@[simp] theorem complete_pos (s : State) : (complete s).pos = s.pos := rfl
@[simp] theorem complete_eof (s : State) : (complete s).eof = s.eof := rfl
@[simp] theorem complete_refillErr (s : State) : (complete s).refillErr = s.refillErr := rfl
@[simp] theorem complete_res (s : State) : (complete s).res = s.res := rfl
@[simp] theorem complete_lock (s : State) : (complete s).lock = s.lock := rfl
@[simp] theorem complete_syn0 (s : State) : (complete s).syn0 = s.syn0 := rfl
@[simp] theorem complete_syn1 (s : State) : (complete s).syn1 = s.syn1 := rfl
@[simp] theorem complete_pcmMem (s : State) : (complete s).pcmMem = s.pcmMem := rfl
@[simp] theorem complete_isSnap (s : State) : (complete s).isSnap = s.isSnap := rfl
@[simp] theorem complete_ibufCap (s : State) : (complete s).ibufCap = s.ibufCap := rfl
@[simp] theorem complete_inputs (s : State) : (complete s).inputs = s.inputs := rfl
@[simp] theorem complete_busData (s : State) : (complete s).busData = s.busData := rfl
@[simp] theorem complete_busError (s : State) : (complete s).busError = s.busError := rfl
@[simp] theorem complete_epoch (s : State) : (complete s).epoch = s.epoch := rfl

@[simp] theorem dropSession_ctrl (s : State) : (dropSession s).ctrl = s.ctrl := rfl
@[simp] theorem dropSession_engine (s : State) : (dropSession s).engine = s.engine := rfl
@[simp] theorem dropSession_session (s : State) : (dropSession s).session = s.session := rfl
@[simp] theorem dropSession_pcmValid (s : State) : (dropSession s).pcmValid = false := rfl
@[simp] theorem dropSession_eos (s : State) : (dropSession s).eos = false := rfl
@[simp] theorem dropSession_done (s : State) : (dropSession s).done = s.done := rfl
@[simp] theorem dropSession_err (s : State) : (dropSession s).err = s.err := rfl
@[simp] theorem dropSession_pending (s : State) : (dropSession s).pending = s.pending := rfl
@[simp] theorem dropSession_refillMax (s : State) : (dropSession s).refillMax = s.refillMax := rfl
@[simp] theorem dropSession_refillCount (s : State) : (dropSession s).refillCount = s.refillCount := rfl
@[simp] theorem dropSession_header (s : State) : (dropSession s).header = 0 := rfl
@[simp] theorem dropSession_sampleRate (s : State) : (dropSession s).sampleRate = 0 := rfl
@[simp] theorem dropSession_bitrate (s : State) : (dropSession s).bitrate = 0 := rfl
@[simp] theorem dropSession_srcChannels (s : State) : (dropSession s).srcChannels = 0 := rfl
@[simp] theorem dropSession_pcmLength (s : State) : (dropSession s).pcmLength = 0 := rfl
@[simp] theorem dropSession_pcmChannels (s : State) : (dropSession s).pcmChannels = 0 := rfl
@[simp] theorem dropSession_frames (s : State) : (dropSession s).frames = s.frames := rfl
@[simp] theorem dropSession_resyncs (s : State) : (dropSession s).resyncs = s.resyncs := rfl
@[simp] theorem dropSession_dropped (s : State) : (dropSession s).dropped = s.dropped := rfl
@[simp] theorem dropSession_diagCause (s : State) : (dropSession s).diagCause = s.diagCause := rfl
@[simp] theorem dropSession_dbgSel (s : State) : (dropSession s).dbgSel = s.dbgSel := rfl
@[simp] theorem dropSession_ibuf (s : State) : (dropSession s).ibuf = s.ibuf := rfl
@[simp] theorem dropSession_avail (s : State) : (dropSession s).avail = 0 := rfl
@[simp] theorem dropSession_pos (s : State) : (dropSession s).pos = 0 := rfl
@[simp] theorem dropSession_eof (s : State) : (dropSession s).eof = false := rfl
@[simp] theorem dropSession_refillErr (s : State) : (dropSession s).refillErr = false := rfl
@[simp] theorem dropSession_res (s : State) : (dropSession s).res = [] := rfl
@[simp] theorem dropSession_lock (s : State) : (dropSession s).lock = none := rfl
@[simp] theorem dropSession_syn0 (s : State) : (dropSession s).syn0 = zeroSyn := rfl
@[simp] theorem dropSession_syn1 (s : State) : (dropSession s).syn1 = zeroSyn := rfl
@[simp] theorem dropSession_pcmMem (s : State) : (dropSession s).pcmMem = s.pcmMem := rfl
@[simp] theorem dropSession_isSnap (s : State) : (dropSession s).isSnap = s.isSnap := rfl
@[simp] theorem dropSession_ibufCap (s : State) : (dropSession s).ibufCap = s.ibufCap := rfl
@[simp] theorem dropSession_inputs (s : State) : (dropSession s).inputs = s.inputs := rfl
@[simp] theorem dropSession_busData (s : State) : (dropSession s).busData = s.busData := rfl
@[simp] theorem dropSession_busError (s : State) : (dropSession s).busError = s.busError := rfl
@[simp] theorem dropSession_epoch (s : State) : (dropSession s).epoch = s.epoch := rfl

@[simp] theorem clearCounters_ctrl (s : State) : (clearCounters s).ctrl = s.ctrl := rfl
@[simp] theorem clearCounters_engine (s : State) : (clearCounters s).engine = s.engine := rfl
@[simp] theorem clearCounters_session (s : State) : (clearCounters s).session = s.session := rfl
@[simp] theorem clearCounters_pcmValid (s : State) : (clearCounters s).pcmValid = s.pcmValid := rfl
@[simp] theorem clearCounters_eos (s : State) : (clearCounters s).eos = s.eos := rfl
@[simp] theorem clearCounters_done (s : State) : (clearCounters s).done = s.done := rfl
@[simp] theorem clearCounters_err (s : State) : (clearCounters s).err = s.err := rfl
@[simp] theorem clearCounters_pending (s : State) : (clearCounters s).pending = s.pending := rfl
@[simp] theorem clearCounters_refillMax (s : State) : (clearCounters s).refillMax = s.refillMax := rfl
@[simp] theorem clearCounters_refillCount (s : State) : (clearCounters s).refillCount = s.refillCount := rfl
@[simp] theorem clearCounters_header (s : State) : (clearCounters s).header = s.header := rfl
@[simp] theorem clearCounters_sampleRate (s : State) : (clearCounters s).sampleRate = s.sampleRate := rfl
@[simp] theorem clearCounters_bitrate (s : State) : (clearCounters s).bitrate = s.bitrate := rfl
@[simp] theorem clearCounters_srcChannels (s : State) : (clearCounters s).srcChannels = s.srcChannels := rfl
@[simp] theorem clearCounters_pcmLength (s : State) : (clearCounters s).pcmLength = s.pcmLength := rfl
@[simp] theorem clearCounters_pcmChannels (s : State) : (clearCounters s).pcmChannels = s.pcmChannels := rfl
@[simp] theorem clearCounters_frames (s : State) : (clearCounters s).frames = 0 := rfl
@[simp] theorem clearCounters_resyncs (s : State) : (clearCounters s).resyncs = 0 := rfl
@[simp] theorem clearCounters_dropped (s : State) : (clearCounters s).dropped = 0 := rfl
@[simp] theorem clearCounters_diagCause (s : State) : (clearCounters s).diagCause = .none := rfl
@[simp] theorem clearCounters_dbgSel (s : State) : (clearCounters s).dbgSel = s.dbgSel := rfl
@[simp] theorem clearCounters_ibuf (s : State) : (clearCounters s).ibuf = s.ibuf := rfl
@[simp] theorem clearCounters_avail (s : State) : (clearCounters s).avail = s.avail := rfl
@[simp] theorem clearCounters_pos (s : State) : (clearCounters s).pos = s.pos := rfl
@[simp] theorem clearCounters_eof (s : State) : (clearCounters s).eof = s.eof := rfl
@[simp] theorem clearCounters_refillErr (s : State) : (clearCounters s).refillErr = s.refillErr := rfl
@[simp] theorem clearCounters_res (s : State) : (clearCounters s).res = s.res := rfl
@[simp] theorem clearCounters_lock (s : State) : (clearCounters s).lock = s.lock := rfl
@[simp] theorem clearCounters_syn0 (s : State) : (clearCounters s).syn0 = s.syn0 := rfl
@[simp] theorem clearCounters_syn1 (s : State) : (clearCounters s).syn1 = s.syn1 := rfl
@[simp] theorem clearCounters_pcmMem (s : State) : (clearCounters s).pcmMem = s.pcmMem := rfl
@[simp] theorem clearCounters_isSnap (s : State) : (clearCounters s).isSnap = zeroSnap := rfl
@[simp] theorem clearCounters_ibufCap (s : State) : (clearCounters s).ibufCap = s.ibufCap := rfl
@[simp] theorem clearCounters_inputs (s : State) : (clearCounters s).inputs = s.inputs := rfl
@[simp] theorem clearCounters_busData (s : State) : (clearCounters s).busData = s.busData := rfl
@[simp] theorem clearCounters_busError (s : State) : (clearCounters s).busError = s.busError := rfl
@[simp] theorem clearCounters_epoch (s : State) : (clearCounters s).epoch = s.epoch := rfl

@[simp] theorem initialFill_ctrl (s : State) : (initialFill s).ctrl = s.ctrl := rfl
@[simp] theorem initialFill_engine (s : State) : (initialFill s).engine = .needData := rfl
@[simp] theorem initialFill_session (s : State) : (initialFill s).session = s.session := rfl
@[simp] theorem initialFill_pcmValid (s : State) : (initialFill s).pcmValid = s.pcmValid := rfl
@[simp] theorem initialFill_eos (s : State) : (initialFill s).eos = s.eos := rfl
@[simp] theorem initialFill_done (s : State) : (initialFill s).done = s.done := rfl
@[simp] theorem initialFill_err (s : State) : (initialFill s).err = s.err := rfl
@[simp] theorem initialFill_pending (s : State) : (initialFill s).pending = .opening := rfl
@[simp] theorem initialFill_refillMax (s : State) : (initialFill s).refillMax = s.ibufCap := rfl
@[simp] theorem initialFill_refillCount (s : State) : (initialFill s).refillCount = 0 := rfl
@[simp] theorem initialFill_header (s : State) : (initialFill s).header = s.header := rfl
@[simp] theorem initialFill_sampleRate (s : State) : (initialFill s).sampleRate = s.sampleRate := rfl
@[simp] theorem initialFill_bitrate (s : State) : (initialFill s).bitrate = s.bitrate := rfl
@[simp] theorem initialFill_srcChannels (s : State) : (initialFill s).srcChannels = s.srcChannels := rfl
@[simp] theorem initialFill_pcmLength (s : State) : (initialFill s).pcmLength = s.pcmLength := rfl
@[simp] theorem initialFill_pcmChannels (s : State) : (initialFill s).pcmChannels = s.pcmChannels := rfl
@[simp] theorem initialFill_frames (s : State) : (initialFill s).frames = s.frames := rfl
@[simp] theorem initialFill_resyncs (s : State) : (initialFill s).resyncs = s.resyncs := rfl
@[simp] theorem initialFill_dropped (s : State) : (initialFill s).dropped = s.dropped := rfl
@[simp] theorem initialFill_diagCause (s : State) : (initialFill s).diagCause = s.diagCause := rfl
@[simp] theorem initialFill_dbgSel (s : State) : (initialFill s).dbgSel = s.dbgSel := rfl
@[simp] theorem initialFill_ibuf (s : State) : (initialFill s).ibuf = s.ibuf := rfl
@[simp] theorem initialFill_avail (s : State) : (initialFill s).avail = 0 := rfl
@[simp] theorem initialFill_pos (s : State) : (initialFill s).pos = 0 := rfl
@[simp] theorem initialFill_eof (s : State) : (initialFill s).eof = false := rfl
@[simp] theorem initialFill_refillErr (s : State) : (initialFill s).refillErr = false := rfl
@[simp] theorem initialFill_res (s : State) : (initialFill s).res = s.res := rfl
@[simp] theorem initialFill_lock (s : State) : (initialFill s).lock = s.lock := rfl
@[simp] theorem initialFill_syn0 (s : State) : (initialFill s).syn0 = s.syn0 := rfl
@[simp] theorem initialFill_syn1 (s : State) : (initialFill s).syn1 = s.syn1 := rfl
@[simp] theorem initialFill_pcmMem (s : State) : (initialFill s).pcmMem = s.pcmMem := rfl
@[simp] theorem initialFill_isSnap (s : State) : (initialFill s).isSnap = s.isSnap := rfl
@[simp] theorem initialFill_ibufCap (s : State) : (initialFill s).ibufCap = s.ibufCap := rfl
@[simp] theorem initialFill_inputs (s : State) : (initialFill s).inputs = s.inputs := rfl
@[simp] theorem initialFill_busData (s : State) : (initialFill s).busData = s.busData := rfl
@[simp] theorem initialFill_busError (s : State) : (initialFill s).busError = s.busError := rfl
@[simp] theorem initialFill_epoch (s : State) : (initialFill s).epoch = s.epoch := rfl

@[simp] theorem refillRequest_ctrl (s : State) : (refillRequest s).ctrl = s.ctrl := rfl
@[simp] theorem refillRequest_engine (s : State) : (refillRequest s).engine = .needData := rfl
@[simp] theorem refillRequest_session (s : State) : (refillRequest s).session = s.session := rfl
@[simp] theorem refillRequest_pcmValid (s : State) : (refillRequest s).pcmValid = s.pcmValid := rfl
@[simp] theorem refillRequest_eos (s : State) : (refillRequest s).eos = s.eos := rfl
@[simp] theorem refillRequest_done (s : State) : (refillRequest s).done = s.done := rfl
@[simp] theorem refillRequest_err (s : State) : (refillRequest s).err = s.err := rfl
@[simp] theorem refillRequest_pending (s : State) : (refillRequest s).pending = s.pending := rfl
@[simp] theorem refillRequest_refillMax (s : State) : (refillRequest s).refillMax = s.ibufCap - (s.avail - s.pos) := rfl
@[simp] theorem refillRequest_refillCount (s : State) : (refillRequest s).refillCount = 0 := rfl
@[simp] theorem refillRequest_header (s : State) : (refillRequest s).header = s.header := rfl
@[simp] theorem refillRequest_sampleRate (s : State) : (refillRequest s).sampleRate = s.sampleRate := rfl
@[simp] theorem refillRequest_bitrate (s : State) : (refillRequest s).bitrate = s.bitrate := rfl
@[simp] theorem refillRequest_srcChannels (s : State) : (refillRequest s).srcChannels = s.srcChannels := rfl
@[simp] theorem refillRequest_pcmLength (s : State) : (refillRequest s).pcmLength = s.pcmLength := rfl
@[simp] theorem refillRequest_pcmChannels (s : State) : (refillRequest s).pcmChannels = s.pcmChannels := rfl
@[simp] theorem refillRequest_frames (s : State) : (refillRequest s).frames = s.frames := rfl
@[simp] theorem refillRequest_resyncs (s : State) : (refillRequest s).resyncs = s.resyncs := rfl
@[simp] theorem refillRequest_dropped (s : State) : (refillRequest s).dropped = s.dropped := rfl
@[simp] theorem refillRequest_diagCause (s : State) : (refillRequest s).diagCause = s.diagCause := rfl
@[simp] theorem refillRequest_dbgSel (s : State) : (refillRequest s).dbgSel = s.dbgSel := rfl
@[simp] theorem refillRequest_ibuf (s : State) : (refillRequest s).ibuf = s.ibuf.moveDown s.pos s.avail := rfl
@[simp] theorem refillRequest_avail (s : State) : (refillRequest s).avail = s.avail - s.pos := rfl
@[simp] theorem refillRequest_pos (s : State) : (refillRequest s).pos = 0 := rfl
@[simp] theorem refillRequest_eof (s : State) : (refillRequest s).eof = s.eof := rfl
@[simp] theorem refillRequest_refillErr (s : State) : (refillRequest s).refillErr = false := rfl
@[simp] theorem refillRequest_res (s : State) : (refillRequest s).res = s.res := rfl
@[simp] theorem refillRequest_lock (s : State) : (refillRequest s).lock = s.lock := rfl
@[simp] theorem refillRequest_syn0 (s : State) : (refillRequest s).syn0 = s.syn0 := rfl
@[simp] theorem refillRequest_syn1 (s : State) : (refillRequest s).syn1 = s.syn1 := rfl
@[simp] theorem refillRequest_pcmMem (s : State) : (refillRequest s).pcmMem = s.pcmMem := rfl
@[simp] theorem refillRequest_isSnap (s : State) : (refillRequest s).isSnap = s.isSnap := rfl
@[simp] theorem refillRequest_ibufCap (s : State) : (refillRequest s).ibufCap = s.ibufCap := rfl
@[simp] theorem refillRequest_inputs (s : State) : (refillRequest s).inputs = s.inputs := rfl
@[simp] theorem refillRequest_busData (s : State) : (refillRequest s).busData = s.busData := rfl
@[simp] theorem refillRequest_busError (s : State) : (refillRequest s).busError = s.busError := rfl
@[simp] theorem refillRequest_epoch (s : State) : (refillRequest s).epoch = s.epoch := rfl

@[simp] theorem respond_ctrl (b : Bool) (d : Word) (s : State) : (respond b d s).ctrl = s.ctrl := rfl
@[simp] theorem respond_engine (b : Bool) (d : Word) (s : State) : (respond b d s).engine = s.engine := rfl
@[simp] theorem respond_session (b : Bool) (d : Word) (s : State) : (respond b d s).session = s.session := rfl
@[simp] theorem respond_pcmValid (b : Bool) (d : Word) (s : State) : (respond b d s).pcmValid = s.pcmValid := rfl
@[simp] theorem respond_eos (b : Bool) (d : Word) (s : State) : (respond b d s).eos = s.eos := rfl
@[simp] theorem respond_done (b : Bool) (d : Word) (s : State) : (respond b d s).done = s.done := rfl
@[simp] theorem respond_err (b : Bool) (d : Word) (s : State) : (respond b d s).err = s.err := rfl
@[simp] theorem respond_pending (b : Bool) (d : Word) (s : State) : (respond b d s).pending = s.pending := rfl
@[simp] theorem respond_refillMax (b : Bool) (d : Word) (s : State) : (respond b d s).refillMax = s.refillMax := rfl
@[simp] theorem respond_refillCount (b : Bool) (d : Word) (s : State) :
    (respond b d s).refillCount = s.refillCount := rfl
@[simp] theorem respond_header (b : Bool) (d : Word) (s : State) : (respond b d s).header = s.header := rfl
@[simp] theorem respond_sampleRate (b : Bool) (d : Word) (s : State) : (respond b d s).sampleRate = s.sampleRate := rfl
@[simp] theorem respond_bitrate (b : Bool) (d : Word) (s : State) : (respond b d s).bitrate = s.bitrate := rfl
@[simp] theorem respond_srcChannels (b : Bool) (d : Word) (s : State) :
    (respond b d s).srcChannels = s.srcChannels := rfl
@[simp] theorem respond_pcmLength (b : Bool) (d : Word) (s : State) : (respond b d s).pcmLength = s.pcmLength := rfl
@[simp] theorem respond_pcmChannels (b : Bool) (d : Word) (s : State) :
    (respond b d s).pcmChannels = s.pcmChannels := rfl
@[simp] theorem respond_frames (b : Bool) (d : Word) (s : State) : (respond b d s).frames = s.frames := rfl
@[simp] theorem respond_resyncs (b : Bool) (d : Word) (s : State) : (respond b d s).resyncs = s.resyncs := rfl
@[simp] theorem respond_dropped (b : Bool) (d : Word) (s : State) : (respond b d s).dropped = s.dropped := rfl
@[simp] theorem respond_diagCause (b : Bool) (d : Word) (s : State) : (respond b d s).diagCause = s.diagCause := rfl
@[simp] theorem respond_dbgSel (b : Bool) (d : Word) (s : State) : (respond b d s).dbgSel = s.dbgSel := rfl
@[simp] theorem respond_ibuf (b : Bool) (d : Word) (s : State) : (respond b d s).ibuf = s.ibuf := rfl
@[simp] theorem respond_avail (b : Bool) (d : Word) (s : State) : (respond b d s).avail = s.avail := rfl
@[simp] theorem respond_pos (b : Bool) (d : Word) (s : State) : (respond b d s).pos = s.pos := rfl
@[simp] theorem respond_eof (b : Bool) (d : Word) (s : State) : (respond b d s).eof = s.eof := rfl
@[simp] theorem respond_refillErr (b : Bool) (d : Word) (s : State) : (respond b d s).refillErr = s.refillErr := rfl
@[simp] theorem respond_res (b : Bool) (d : Word) (s : State) : (respond b d s).res = s.res := rfl
@[simp] theorem respond_lock (b : Bool) (d : Word) (s : State) : (respond b d s).lock = s.lock := rfl
@[simp] theorem respond_syn0 (b : Bool) (d : Word) (s : State) : (respond b d s).syn0 = s.syn0 := rfl
@[simp] theorem respond_syn1 (b : Bool) (d : Word) (s : State) : (respond b d s).syn1 = s.syn1 := rfl
@[simp] theorem respond_pcmMem (b : Bool) (d : Word) (s : State) : (respond b d s).pcmMem = s.pcmMem := rfl
@[simp] theorem respond_isSnap (b : Bool) (d : Word) (s : State) : (respond b d s).isSnap = s.isSnap := rfl
@[simp] theorem respond_ibufCap (b : Bool) (d : Word) (s : State) : (respond b d s).ibufCap = s.ibufCap := rfl
@[simp] theorem respond_inputs (b : Bool) (d : Word) (s : State) : (respond b d s).inputs = s.inputs := rfl
@[simp] theorem respond_busData (b : Bool) (d : Word) (s : State) : (respond b d s).busData = d := rfl
@[simp] theorem respond_busError (b : Bool) (d : Word) (s : State) : (respond b d s).busError = b := rfl
@[simp] theorem respond_epoch (b : Bool) (d : Word) (s : State) : (respond b d s).epoch = s.epoch := rfl

@[simp] theorem tick_ctrl (s : State) : (tick s).ctrl = s.ctrl := rfl
@[simp] theorem tick_engine (s : State) : (tick s).engine = s.engine := rfl
@[simp] theorem tick_session (s : State) : (tick s).session = s.session := rfl
@[simp] theorem tick_pcmValid (s : State) : (tick s).pcmValid = s.pcmValid := rfl
@[simp] theorem tick_eos (s : State) : (tick s).eos = s.eos := rfl
@[simp] theorem tick_done (s : State) : (tick s).done = s.done := rfl
@[simp] theorem tick_err (s : State) : (tick s).err = s.err := rfl
@[simp] theorem tick_pending (s : State) : (tick s).pending = s.pending := rfl
@[simp] theorem tick_refillMax (s : State) : (tick s).refillMax = s.refillMax := rfl
@[simp] theorem tick_refillCount (s : State) : (tick s).refillCount = s.refillCount := rfl
@[simp] theorem tick_header (s : State) : (tick s).header = s.header := rfl
@[simp] theorem tick_sampleRate (s : State) : (tick s).sampleRate = s.sampleRate := rfl
@[simp] theorem tick_bitrate (s : State) : (tick s).bitrate = s.bitrate := rfl
@[simp] theorem tick_srcChannels (s : State) : (tick s).srcChannels = s.srcChannels := rfl
@[simp] theorem tick_pcmLength (s : State) : (tick s).pcmLength = s.pcmLength := rfl
@[simp] theorem tick_pcmChannels (s : State) : (tick s).pcmChannels = s.pcmChannels := rfl
@[simp] theorem tick_frames (s : State) : (tick s).frames = s.frames := rfl
@[simp] theorem tick_resyncs (s : State) : (tick s).resyncs = s.resyncs := rfl
@[simp] theorem tick_dropped (s : State) : (tick s).dropped = s.dropped := rfl
@[simp] theorem tick_diagCause (s : State) : (tick s).diagCause = s.diagCause := rfl
@[simp] theorem tick_dbgSel (s : State) : (tick s).dbgSel = s.dbgSel := rfl
@[simp] theorem tick_ibuf (s : State) : (tick s).ibuf = s.ibuf := rfl
@[simp] theorem tick_avail (s : State) : (tick s).avail = s.avail := rfl
@[simp] theorem tick_pos (s : State) : (tick s).pos = s.pos := rfl
@[simp] theorem tick_eof (s : State) : (tick s).eof = s.eof := rfl
@[simp] theorem tick_refillErr (s : State) : (tick s).refillErr = s.refillErr := rfl
@[simp] theorem tick_res (s : State) : (tick s).res = s.res := rfl
@[simp] theorem tick_lock (s : State) : (tick s).lock = s.lock := rfl
@[simp] theorem tick_syn0 (s : State) : (tick s).syn0 = s.syn0 := rfl
@[simp] theorem tick_syn1 (s : State) : (tick s).syn1 = s.syn1 := rfl
@[simp] theorem tick_pcmMem (s : State) : (tick s).pcmMem = s.pcmMem := rfl
@[simp] theorem tick_isSnap (s : State) : (tick s).isSnap = s.isSnap := rfl
@[simp] theorem tick_ibufCap (s : State) : (tick s).ibufCap = s.ibufCap := rfl
@[simp] theorem tick_inputs (s : State) : (tick s).inputs = s.inputs := rfl
@[simp] theorem tick_busData (s : State) : (tick s).busData = s.busData := rfl
@[simp] theorem tick_busError (s : State) : (tick s).busError = s.busError := rfl
@[simp] theorem tick_epoch (s : State) : (tick s).epoch = s.epoch + 1 := rfl

@[simp] theorem syncSkip_ctrl (s : State) : (syncSkip s).ctrl = s.ctrl := rfl
@[simp] theorem syncSkip_engine (s : State) : (syncSkip s).engine = s.engine := rfl
@[simp] theorem syncSkip_session (s : State) : (syncSkip s).session = s.session := rfl
@[simp] theorem syncSkip_pcmValid (s : State) : (syncSkip s).pcmValid = s.pcmValid := rfl
@[simp] theorem syncSkip_eos (s : State) : (syncSkip s).eos = s.eos := rfl
@[simp] theorem syncSkip_done (s : State) : (syncSkip s).done = s.done := rfl
@[simp] theorem syncSkip_err (s : State) : (syncSkip s).err = s.err := rfl
@[simp] theorem syncSkip_pending (s : State) : (syncSkip s).pending = s.pending := rfl
@[simp] theorem syncSkip_refillMax (s : State) : (syncSkip s).refillMax = s.refillMax := rfl
@[simp] theorem syncSkip_refillCount (s : State) : (syncSkip s).refillCount = s.refillCount := rfl
@[simp] theorem syncSkip_header (s : State) : (syncSkip s).header = s.header := rfl
@[simp] theorem syncSkip_sampleRate (s : State) : (syncSkip s).sampleRate = s.sampleRate := rfl
@[simp] theorem syncSkip_bitrate (s : State) : (syncSkip s).bitrate = s.bitrate := rfl
@[simp] theorem syncSkip_srcChannels (s : State) : (syncSkip s).srcChannels = s.srcChannels := rfl
@[simp] theorem syncSkip_pcmLength (s : State) : (syncSkip s).pcmLength = s.pcmLength := rfl
@[simp] theorem syncSkip_pcmChannels (s : State) : (syncSkip s).pcmChannels = s.pcmChannels := rfl
@[simp] theorem syncSkip_frames (s : State) : (syncSkip s).frames = s.frames := rfl
@[simp] theorem syncSkip_resyncs (s : State) : (syncSkip s).resyncs = s.resyncs + 1 := rfl
@[simp] theorem syncSkip_dropped (s : State) : (syncSkip s).dropped = s.dropped := rfl
@[simp] theorem syncSkip_diagCause (s : State) : (syncSkip s).diagCause = .syncSkip := rfl
@[simp] theorem syncSkip_dbgSel (s : State) : (syncSkip s).dbgSel = s.dbgSel := rfl
@[simp] theorem syncSkip_ibuf (s : State) : (syncSkip s).ibuf = s.ibuf := rfl
@[simp] theorem syncSkip_avail (s : State) : (syncSkip s).avail = s.avail := rfl
@[simp] theorem syncSkip_pos (s : State) : (syncSkip s).pos = s.pos + 1 := rfl
@[simp] theorem syncSkip_eof (s : State) : (syncSkip s).eof = s.eof := rfl
@[simp] theorem syncSkip_refillErr (s : State) : (syncSkip s).refillErr = s.refillErr := rfl
@[simp] theorem syncSkip_res (s : State) : (syncSkip s).res = s.res := rfl
@[simp] theorem syncSkip_lock (s : State) : (syncSkip s).lock = s.lock := rfl
@[simp] theorem syncSkip_syn0 (s : State) : (syncSkip s).syn0 = s.syn0 := rfl
@[simp] theorem syncSkip_syn1 (s : State) : (syncSkip s).syn1 = s.syn1 := rfl
@[simp] theorem syncSkip_pcmMem (s : State) : (syncSkip s).pcmMem = s.pcmMem := rfl
@[simp] theorem syncSkip_isSnap (s : State) : (syncSkip s).isSnap = s.isSnap := rfl
@[simp] theorem syncSkip_ibufCap (s : State) : (syncSkip s).ibufCap = s.ibufCap := rfl
@[simp] theorem syncSkip_inputs (s : State) : (syncSkip s).inputs = s.inputs := rfl
@[simp] theorem syncSkip_busData (s : State) : (syncSkip s).busData = s.busData := rfl
@[simp] theorem syncSkip_busError (s : State) : (syncSkip s).busError = s.busError := rfl
@[simp] theorem syncSkip_epoch (s : State) : (syncSkip s).epoch = s.epoch := rfl

@[simp] theorem dropFrame_ctrl (c : Cause) (n : Nat) (r : List Byte) (s : State) :
    (dropFrame c n r s).ctrl = s.ctrl := rfl
@[simp] theorem dropFrame_engine (c : Cause) (n : Nat) (r : List Byte) (s : State) :
    (dropFrame c n r s).engine = s.engine := rfl
@[simp] theorem dropFrame_session (c : Cause) (n : Nat) (r : List Byte) (s : State) :
    (dropFrame c n r s).session = s.session := rfl
@[simp] theorem dropFrame_pcmValid (c : Cause) (n : Nat) (r : List Byte) (s : State) :
    (dropFrame c n r s).pcmValid = s.pcmValid := rfl
@[simp] theorem dropFrame_eos (c : Cause) (n : Nat) (r : List Byte) (s : State) : (dropFrame c n r s).eos = s.eos := rfl
@[simp] theorem dropFrame_done (c : Cause) (n : Nat) (r : List Byte) (s : State) :
    (dropFrame c n r s).done = s.done := rfl
@[simp] theorem dropFrame_err (c : Cause) (n : Nat) (r : List Byte) (s : State) : (dropFrame c n r s).err = s.err := rfl
@[simp] theorem dropFrame_pending (c : Cause) (n : Nat) (r : List Byte) (s : State) :
    (dropFrame c n r s).pending = s.pending := rfl
@[simp] theorem dropFrame_refillMax (c : Cause) (n : Nat) (r : List Byte) (s : State) :
    (dropFrame c n r s).refillMax = s.refillMax := rfl
@[simp] theorem dropFrame_refillCount (c : Cause) (n : Nat) (r : List Byte) (s : State) :
    (dropFrame c n r s).refillCount = s.refillCount := rfl
@[simp] theorem dropFrame_header (c : Cause) (n : Nat) (r : List Byte) (s : State) :
    (dropFrame c n r s).header = s.header := rfl
@[simp] theorem dropFrame_sampleRate (c : Cause) (n : Nat) (r : List Byte) (s : State) :
    (dropFrame c n r s).sampleRate = s.sampleRate := rfl
@[simp] theorem dropFrame_bitrate (c : Cause) (n : Nat) (r : List Byte) (s : State) :
    (dropFrame c n r s).bitrate = s.bitrate := rfl
@[simp] theorem dropFrame_srcChannels (c : Cause) (n : Nat) (r : List Byte) (s : State) :
    (dropFrame c n r s).srcChannels = s.srcChannels := rfl
@[simp] theorem dropFrame_pcmLength (c : Cause) (n : Nat) (r : List Byte) (s : State) :
    (dropFrame c n r s).pcmLength = s.pcmLength := rfl
@[simp] theorem dropFrame_pcmChannels (c : Cause) (n : Nat) (r : List Byte) (s : State) :
    (dropFrame c n r s).pcmChannels = s.pcmChannels := rfl
@[simp] theorem dropFrame_frames (c : Cause) (n : Nat) (r : List Byte) (s : State) :
    (dropFrame c n r s).frames = s.frames := rfl
@[simp] theorem dropFrame_resyncs (c : Cause) (n : Nat) (r : List Byte) (s : State) :
    (dropFrame c n r s).resyncs = s.resyncs := rfl
@[simp] theorem dropFrame_dropped (c : Cause) (n : Nat) (r : List Byte) (s : State) :
    (dropFrame c n r s).dropped = s.dropped + 1 := rfl
@[simp] theorem dropFrame_diagCause (c : Cause) (n : Nat) (r : List Byte) (s : State) :
    (dropFrame c n r s).diagCause = c := rfl
@[simp] theorem dropFrame_dbgSel (c : Cause) (n : Nat) (r : List Byte) (s : State) :
    (dropFrame c n r s).dbgSel = s.dbgSel := rfl
@[simp] theorem dropFrame_ibuf (c : Cause) (n : Nat) (r : List Byte) (s : State) :
    (dropFrame c n r s).ibuf = s.ibuf := rfl
@[simp] theorem dropFrame_avail (c : Cause) (n : Nat) (r : List Byte) (s : State) :
    (dropFrame c n r s).avail = s.avail := rfl
@[simp] theorem dropFrame_pos (c : Cause) (n : Nat) (r : List Byte) (s : State) :
    (dropFrame c n r s).pos = s.pos + n := rfl
@[simp] theorem dropFrame_eof (c : Cause) (n : Nat) (r : List Byte) (s : State) : (dropFrame c n r s).eof = s.eof := rfl
@[simp] theorem dropFrame_refillErr (c : Cause) (n : Nat) (r : List Byte) (s : State) :
    (dropFrame c n r s).refillErr = s.refillErr := rfl
@[simp] theorem dropFrame_res (c : Cause) (n : Nat) (r : List Byte) (s : State) :
    (dropFrame c n r s).res = trimRes r := by simp only [dropFrame]
@[simp] theorem dropFrame_lock (c : Cause) (n : Nat) (r : List Byte) (s : State) :
    (dropFrame c n r s).lock = s.lock := rfl
@[simp] theorem dropFrame_syn0 (c : Cause) (n : Nat) (r : List Byte) (s : State) :
    (dropFrame c n r s).syn0 = s.syn0 := rfl
@[simp] theorem dropFrame_syn1 (c : Cause) (n : Nat) (r : List Byte) (s : State) :
    (dropFrame c n r s).syn1 = s.syn1 := rfl
@[simp] theorem dropFrame_pcmMem (c : Cause) (n : Nat) (r : List Byte) (s : State) :
    (dropFrame c n r s).pcmMem = s.pcmMem := rfl
@[simp] theorem dropFrame_isSnap (c : Cause) (n : Nat) (r : List Byte) (s : State) :
    (dropFrame c n r s).isSnap = s.isSnap := rfl
@[simp] theorem dropFrame_ibufCap (c : Cause) (n : Nat) (r : List Byte) (s : State) :
    (dropFrame c n r s).ibufCap = s.ibufCap := rfl
@[simp] theorem dropFrame_inputs (c : Cause) (n : Nat) (r : List Byte) (s : State) :
    (dropFrame c n r s).inputs = s.inputs := rfl
@[simp] theorem dropFrame_busData (c : Cause) (n : Nat) (r : List Byte) (s : State) :
    (dropFrame c n r s).busData = s.busData := rfl
@[simp] theorem dropFrame_busError (c : Cause) (n : Nat) (r : List Byte) (s : State) :
    (dropFrame c n r s).busError = s.busError := rfl
@[simp] theorem dropFrame_epoch (c : Cause) (n : Nat) (r : List Byte) (s : State) :
    (dropFrame c n r s).epoch = s.epoch := rfl

@[simp] theorem endOfStream_ctrl (s : State) : (endOfStream s).ctrl = s.ctrl := rfl
@[simp] theorem endOfStream_engine (s : State) : (endOfStream s).engine = .idle := rfl
@[simp] theorem endOfStream_session (s : State) : (endOfStream s).session = .exhausted := rfl
@[simp] theorem endOfStream_pcmValid (s : State) : (endOfStream s).pcmValid = false := rfl
@[simp] theorem endOfStream_eos (s : State) : (endOfStream s).eos = true := rfl
@[simp] theorem endOfStream_done (s : State) : (endOfStream s).done = true := rfl
@[simp] theorem endOfStream_err (s : State) : (endOfStream s).err = s.err := rfl
@[simp] theorem endOfStream_pending (s : State) : (endOfStream s).pending = .none := rfl
@[simp] theorem endOfStream_refillMax (s : State) : (endOfStream s).refillMax = 0 := rfl
@[simp] theorem endOfStream_refillCount (s : State) : (endOfStream s).refillCount = 0 := rfl
@[simp] theorem endOfStream_header (s : State) : (endOfStream s).header = s.header := rfl
@[simp] theorem endOfStream_sampleRate (s : State) : (endOfStream s).sampleRate = s.sampleRate := rfl
@[simp] theorem endOfStream_bitrate (s : State) : (endOfStream s).bitrate = s.bitrate := rfl
@[simp] theorem endOfStream_srcChannels (s : State) : (endOfStream s).srcChannels = s.srcChannels := rfl
@[simp] theorem endOfStream_pcmLength (s : State) : (endOfStream s).pcmLength = s.pcmLength := rfl
@[simp] theorem endOfStream_pcmChannels (s : State) : (endOfStream s).pcmChannels = s.pcmChannels := rfl
@[simp] theorem endOfStream_frames (s : State) : (endOfStream s).frames = s.frames := rfl
@[simp] theorem endOfStream_resyncs (s : State) : (endOfStream s).resyncs = s.resyncs := rfl
@[simp] theorem endOfStream_dropped (s : State) : (endOfStream s).dropped = s.dropped := rfl
@[simp] theorem endOfStream_diagCause (s : State) : (endOfStream s).diagCause = s.diagCause := rfl
@[simp] theorem endOfStream_dbgSel (s : State) : (endOfStream s).dbgSel = s.dbgSel := rfl
@[simp] theorem endOfStream_ibuf (s : State) : (endOfStream s).ibuf = s.ibuf := rfl
@[simp] theorem endOfStream_avail (s : State) : (endOfStream s).avail = s.avail := rfl
@[simp] theorem endOfStream_pos (s : State) : (endOfStream s).pos = s.pos := rfl
@[simp] theorem endOfStream_eof (s : State) : (endOfStream s).eof = s.eof := rfl
@[simp] theorem endOfStream_refillErr (s : State) : (endOfStream s).refillErr = s.refillErr := rfl
@[simp] theorem endOfStream_res (s : State) : (endOfStream s).res = s.res := rfl
@[simp] theorem endOfStream_lock (s : State) : (endOfStream s).lock = s.lock := rfl
@[simp] theorem endOfStream_syn0 (s : State) : (endOfStream s).syn0 = s.syn0 := rfl
@[simp] theorem endOfStream_syn1 (s : State) : (endOfStream s).syn1 = s.syn1 := rfl
@[simp] theorem endOfStream_pcmMem (s : State) : (endOfStream s).pcmMem = s.pcmMem := rfl
@[simp] theorem endOfStream_isSnap (s : State) : (endOfStream s).isSnap = s.isSnap := rfl
@[simp] theorem endOfStream_ibufCap (s : State) : (endOfStream s).ibufCap = s.ibufCap := rfl
@[simp] theorem endOfStream_inputs (s : State) : (endOfStream s).inputs = s.inputs := rfl
@[simp] theorem endOfStream_busData (s : State) : (endOfStream s).busData = s.busData := rfl
@[simp] theorem endOfStream_busError (s : State) : (endOfStream s).busError = s.busError := rfl
@[simp] theorem endOfStream_epoch (s : State) : (endOfStream s).epoch = s.epoch := rfl

@[simp] theorem deliver_ctrl (H : Word) (f : FrameIn) (r : List Byte) (s : State) :
    (deliver H f r s).ctrl = s.ctrl := rfl
@[simp] theorem deliver_engine (H : Word) (f : FrameIn) (r : List Byte) (s : State) :
    (deliver H f r s).engine = .idle := rfl
@[simp] theorem deliver_session (H : Word) (f : FrameIn) (r : List Byte) (s : State) :
    (deliver H f r s).session = s.session := rfl
@[simp] theorem deliver_pcmValid (H : Word) (f : FrameIn) (r : List Byte) (s : State) :
    (deliver H f r s).pcmValid = true := rfl
@[simp] theorem deliver_eos (H : Word) (f : FrameIn) (r : List Byte) (s : State) : (deliver H f r s).eos = s.eos := rfl
@[simp] theorem deliver_done (H : Word) (f : FrameIn) (r : List Byte) (s : State) : (deliver H f r s).done = true := rfl
@[simp] theorem deliver_err (H : Word) (f : FrameIn) (r : List Byte) (s : State) : (deliver H f r s).err = s.err := rfl
@[simp] theorem deliver_pending (H : Word) (f : FrameIn) (r : List Byte) (s : State) :
    (deliver H f r s).pending = .none := rfl
@[simp] theorem deliver_refillMax (H : Word) (f : FrameIn) (r : List Byte) (s : State) :
    (deliver H f r s).refillMax = 0 := rfl
@[simp] theorem deliver_refillCount (H : Word) (f : FrameIn) (r : List Byte) (s : State) :
    (deliver H f r s).refillCount = 0 := rfl
@[simp] theorem deliver_header (H : Word) (f : FrameIn) (r : List Byte) (s : State) :
    (deliver H f r s).header = H := rfl
@[simp] theorem deliver_sampleRate (H : Word) (f : FrameIn) (r : List Byte) (s : State) :
    (deliver H f r s).sampleRate = BitVec.ofNat 32 (headerOfWord H).fs := rfl
@[simp] theorem deliver_bitrate (H : Word) (f : FrameIn) (r : List Byte) (s : State) :
    (deliver H f r s).bitrate = BitVec.ofNat 32 (headerOfWord H).kbps := rfl
@[simp] theorem deliver_srcChannels (H : Word) (f : FrameIn) (r : List Byte) (s : State) :
    (deliver H f r s).srcChannels = BitVec.ofNat 32 (headerOfWord H).nch := rfl
@[simp] theorem deliver_pcmLength (H : Word) (f : FrameIn) (r : List Byte) (s : State) :
    (deliver H f r s).pcmLength = 1152 := rfl
@[simp] theorem deliver_pcmChannels (H : Word) (f : FrameIn) (r : List Byte) (s : State) :
    (deliver H f r s).pcmChannels = BitVec.ofNat 32 (pcmChannelCount (headerOfWord H).nch (forceStereo s)) := rfl
@[simp] theorem deliver_frames (H : Word) (f : FrameIn) (r : List Byte) (s : State) :
    (deliver H f r s).frames = s.frames + 1 := rfl
@[simp] theorem deliver_resyncs (H : Word) (f : FrameIn) (r : List Byte) (s : State) :
    (deliver H f r s).resyncs = s.resyncs := rfl
@[simp] theorem deliver_dropped (H : Word) (f : FrameIn) (r : List Byte) (s : State) :
    (deliver H f r s).dropped = s.dropped := rfl
@[simp] theorem deliver_diagCause (H : Word) (f : FrameIn) (r : List Byte) (s : State) :
    (deliver H f r s).diagCause = s.diagCause := rfl
@[simp] theorem deliver_dbgSel (H : Word) (f : FrameIn) (r : List Byte) (s : State) :
    (deliver H f r s).dbgSel = s.dbgSel := rfl
@[simp] theorem deliver_ibuf (H : Word) (f : FrameIn) (r : List Byte) (s : State) :
    (deliver H f r s).ibuf = s.ibuf := rfl
@[simp] theorem deliver_avail (H : Word) (f : FrameIn) (r : List Byte) (s : State) :
    (deliver H f r s).avail = s.avail := rfl
@[simp] theorem deliver_pos (H : Word) (f : FrameIn) (r : List Byte) (s : State) :
    (deliver H f r s).pos = s.pos + (headerOfWord H).frameLength := rfl
@[simp] theorem deliver_eof (H : Word) (f : FrameIn) (r : List Byte) (s : State) : (deliver H f r s).eof = s.eof := rfl
@[simp] theorem deliver_refillErr (H : Word) (f : FrameIn) (r : List Byte) (s : State) :
    (deliver H f r s).refillErr = s.refillErr := rfl
@[simp] theorem deliver_res (H : Word) (f : FrameIn) (r : List Byte) (s : State) :
    (deliver H f r s).res = trimRes r := by simp only [deliver, complete]
@[simp] theorem deliver_lock (H : Word) (f : FrameIn) (r : List Byte) (s : State) :
    (deliver H f r s).lock = some (s.lock.getD ⟨(headerOfWord H).fs, (headerOfWord H).nch⟩) := by simp only [deliver, complete]; cases s.lock <;> rfl
@[simp] theorem deliver_syn0 (H : Word) (f : FrameIn) (r : List Byte) (s : State) :
    (deliver H f r s).syn0 = (fxFrame f s.syn0 s.syn1).1.syn := rfl
@[simp] theorem deliver_syn1 (H : Word) (f : FrameIn) (r : List Byte) (s : State) :
    (deliver H f r s).syn1 = (fxFrame f s.syn0 s.syn1).2.syn := rfl
@[simp] theorem deliver_pcmMem (H : Word) (f : FrameIn) (r : List Byte) (s : State) :
    (deliver H f r s).pcmMem = interleave (headerOfWord H).nch (pcmChannelCount (headerOfWord H).nch (forceStereo s)) (fxFrame f s.syn0 s.syn1) s.pcmMem := rfl
@[simp] theorem deliver_isSnap (H : Word) (f : FrameIn) (r : List Byte) (s : State) :
    (deliver H f r s).isSnap = snapshotOf f := rfl
@[simp] theorem deliver_ibufCap (H : Word) (f : FrameIn) (r : List Byte) (s : State) :
    (deliver H f r s).ibufCap = s.ibufCap := rfl
@[simp] theorem deliver_inputs (H : Word) (f : FrameIn) (r : List Byte) (s : State) :
    (deliver H f r s).inputs = s.inputs := rfl
@[simp] theorem deliver_busData (H : Word) (f : FrameIn) (r : List Byte) (s : State) :
    (deliver H f r s).busData = s.busData := rfl
@[simp] theorem deliver_busError (H : Word) (f : FrameIn) (r : List Byte) (s : State) :
    (deliver H f r s).busError = s.busError := rfl
@[simp] theorem deliver_epoch (H : Word) (f : FrameIn) (r : List Byte) (s : State) :
    (deliver H f r s).epoch = s.epoch := rfl

@[simp] theorem resetBlock_ctrl (s : State) : (resetBlock s).ctrl = 0 := rfl
@[simp] theorem resetBlock_engine (s : State) : (resetBlock s).engine = .idle := rfl
@[simp] theorem resetBlock_session (s : State) : (resetBlock s).session = .uninitialized := rfl
@[simp] theorem resetBlock_pcmValid (s : State) : (resetBlock s).pcmValid = false := rfl
@[simp] theorem resetBlock_eos (s : State) : (resetBlock s).eos = false := rfl
@[simp] theorem resetBlock_done (s : State) : (resetBlock s).done = false := rfl
@[simp] theorem resetBlock_err (s : State) : (resetBlock s).err = .none := rfl
@[simp] theorem resetBlock_pending (s : State) : (resetBlock s).pending = .none := rfl
@[simp] theorem resetBlock_refillMax (s : State) : (resetBlock s).refillMax = 0 := rfl
@[simp] theorem resetBlock_refillCount (s : State) : (resetBlock s).refillCount = 0 := rfl
@[simp] theorem resetBlock_header (s : State) : (resetBlock s).header = 0 := rfl
@[simp] theorem resetBlock_sampleRate (s : State) : (resetBlock s).sampleRate = 0 := rfl
@[simp] theorem resetBlock_bitrate (s : State) : (resetBlock s).bitrate = 0 := rfl
@[simp] theorem resetBlock_srcChannels (s : State) : (resetBlock s).srcChannels = 0 := rfl
@[simp] theorem resetBlock_pcmLength (s : State) : (resetBlock s).pcmLength = 0 := rfl
@[simp] theorem resetBlock_pcmChannels (s : State) : (resetBlock s).pcmChannels = 0 := rfl
@[simp] theorem resetBlock_frames (s : State) : (resetBlock s).frames = 0 := rfl
@[simp] theorem resetBlock_resyncs (s : State) : (resetBlock s).resyncs = 0 := rfl
@[simp] theorem resetBlock_dropped (s : State) : (resetBlock s).dropped = 0 := rfl
@[simp] theorem resetBlock_diagCause (s : State) : (resetBlock s).diagCause = .none := rfl
@[simp] theorem resetBlock_dbgSel (s : State) : (resetBlock s).dbgSel = 0 := rfl
@[simp] theorem resetBlock_ibuf (s : State) : (resetBlock s).ibuf = [] := rfl
@[simp] theorem resetBlock_avail (s : State) : (resetBlock s).avail = 0 := rfl
@[simp] theorem resetBlock_pos (s : State) : (resetBlock s).pos = 0 := rfl
@[simp] theorem resetBlock_eof (s : State) : (resetBlock s).eof = false := rfl
@[simp] theorem resetBlock_refillErr (s : State) : (resetBlock s).refillErr = false := rfl
@[simp] theorem resetBlock_res (s : State) : (resetBlock s).res = [] := rfl
@[simp] theorem resetBlock_lock (s : State) : (resetBlock s).lock = none := rfl
@[simp] theorem resetBlock_syn0 (s : State) : (resetBlock s).syn0 = zeroSyn := rfl
@[simp] theorem resetBlock_syn1 (s : State) : (resetBlock s).syn1 = zeroSyn := rfl
@[simp] theorem resetBlock_pcmMem (s : State) : (resetBlock s).pcmMem = Vector.replicate 2304 0 := rfl
@[simp] theorem resetBlock_isSnap (s : State) : (resetBlock s).isSnap = zeroSnap := rfl
@[simp] theorem resetBlock_ibufCap (s : State) : (resetBlock s).ibufCap = s.ibufCap := rfl
@[simp] theorem resetBlock_inputs (s : State) : (resetBlock s).inputs = s.inputs := rfl
@[simp] theorem resetBlock_busData (s : State) : (resetBlock s).busData = s.busData := rfl
@[simp] theorem resetBlock_busError (s : State) : (resetBlock s).busError = s.busError := rfl
@[simp] theorem resetBlock_epoch (s : State) : (resetBlock s).epoch = s.epoch := rfl

end Sys2Proof.Machine
end

