-- ==== Sys2Proof/Laws/Access.lean ====
section
/-! SUPPORT. What an access reaches, said once for each target, and the words of the commands. -/

namespace Sys2Proof.Machine

/-- An access inside the window reaches something of the block's. -/
theorem targetOf_inside {off len : Nat} (h : off < 0x4000) : targetOf off len ≠ .outside := by
  unfold targetOf
  rw [if_neg (by omega)]
  split
  · simp
  split
  · split
    · cases regAt off <;> simp
    · simp
  split
  · repeat' split
    all_goals simp
  · split <;> simp

theorem targetOf_outside {off : Nat} (len : Nat) (h : 0x4000 ≤ off) : targetOf off len = .outside := if_pos h

theorem regAt_some {off : Nat} {r : Reg} (h : regAt off = some r) : off = r.offset := by
  have := List.find?_some h
  simpa [eq_comm] using this

theorem regAt_none {off : Nat} (h : 0x50 ≤ off) : regAt off = none := by
  unfold regAt
  rw [List.find?_eq_none]
  intro r _
  have : r.offset < 0x50 := by cases r <;> decide
  simp only [decide_eq_true_eq]
  omega

/-- Only an aligned 4-byte access at a register's offset reaches it (20_memory.md R152). -/
theorem targetOf_reg {off len : Nat} {r : Reg} (h : targetOf off len = .reg r) : len = 4 ∧ off = r.offset := by
  unfold targetOf at h
  split at h
  · simp at h
  split at h
  · simp at h
  split at h
  · split at h
    · rename_i hl
      cases hr : regAt off with
      | none => simp [hr] at h
      | some q =>
        simp [hr] at h
        subst h
        exact ⟨hl, regAt_some hr⟩
    · simp at h
  · repeat' split at h
    all_goals simp at h

@[simp] theorem targetOf_offset (r : Reg) : targetOf r.offset 4 = .reg r := by cases r <;> decide

@[simp] theorem targetOf_cmd : targetOf 0x008 4 = .reg .cmd := by decide

@[simp] theorem targetOf_inData : targetOf 0x018 4 = .reg .inData := by decide

/-- A 2-byte access of PCM entry `k`. -/
theorem targetOf_pcm2 {k : Nat} (h : k < 2304) : targetOf (0x2000 + 2 * k) 2 = .pcm2 k := by
  unfold targetOf
  rw [if_neg (by omega), if_neg (by simp [misaligned]), if_neg (by omega), if_pos (by omega), if_pos rfl]
  congr 1
  omega

/-- A 4-byte access of PCM entries `2k` and `2k+1`. -/
theorem targetOf_pcm4 {k : Nat} (h : k < 1152) : targetOf (0x2000 + 4 * k) 4 = .pcm4 k := by
  unfold targetOf
  rw [if_neg (by omega), if_neg (by simp [misaligned]), if_neg (by omega), if_pos (by omega),
    if_neg (by omega), if_pos rfl]
  congr 1
  omega

/-- The fields of a word hold all its bits. -/
theorem commandWord_commandFields (w : Word) : commandWord (commandFields w) = w := by
  apply BitVec.eq_of_getLsbD_eq
  intro i hi
  simp only [commandWord, commandFields, BitVec.getLsbD_append, BitVec.getLsbD_extractLsb']
  interval_cases i <;> simp

/-- What a decoded word's fields are. -/
theorem decode_ok {w : Word} {i : Instr} (h : decode w = .ok i) :
    (commandFields w).mbz = 0#23 ∧ ((commandFields w).f0 = 0#1 ∨ (commandFields w).op = 5#8) ∧
      instrOfFields (commandFields w) = some i := by
  unfold decode at h
  generalize commandFields w = f at h
  simp only [CommandFields.mbzZero, CommandFields.flagAllowed] at h
  by_cases h1 : f.mbz = 0#23
  · by_cases h2 : f.f0 = 0#1 ∨ f.op = 5#8
    · have h2' : (decide (f.f0 = 0#1) || decide (f.op = 5#8)) = true := by simpa using h2
      cases hi : instrOfFields f with
      | none => simp only [hi, h1, h2'] at h; simp at h
      | some j =>
        simp [hi, h1, h2'] at h
        exact ⟨h1, h2, by rw [h]⟩
    · have h2' : (decide (f.f0 = 0#1) || decide (f.op = 5#8)) = false := by simpa using h2
      simp [h1, h2'] at h
  · simp [h1] at h

@[simp] theorem decode_encode (i : Instr) : decode (encode i) = .ok i := by cases i <;> decide

/-- A write of a register by a host (20_memory.md R160). -/
theorem hostWrite_reg {off len : Nat} {r : Reg} (v : Word) (s : State) (h : targetOf off len = .reg r) :
    hostWrite off len v s = writeReg r v (respond false 0 (tick s)) := by unfold hostWrite; rw [h]

/-- What a write of CMD runs (47_session_commands.md R681). -/
theorem hostWrite_cmd {v : Word} {i : Instr} (s : State) (h : decode v = .ok i) :
    hostWrite 0x008 4 v s = exec i (respond false 0 (tick s)) := by
  rw [hostWrite_reg v s targetOf_cmd]
  show writeCmd v _ = _
  unfold writeCmd
  rw [h]

theorem hostWrite_inData (v : Word) (s : State) :
    hostWrite 0x018 4 v s = .next (writeInData v (respond false 0 (tick s))) := hostWrite_reg v s targetOf_inData

/-- A write of a register that neither CMD nor IN_DATA is stores the writable bits of CTRL or DBG_SEL, and nothing
else. -/
theorem writeReg_plain {r : Reg} (v : Word) (s : State) (h1 : r ≠ .cmd) (h2 : r ≠ .inData) :
    writeReg r v s = .next { s with
      ctrl := if r = .ctrl then v &&& ctrlMask else s.ctrl
      dbgSel := if r = .dbgSel then v &&& dbgSelMask else s.dbgSel } := by
  cases r <;> first | rfl | exact absurd rfl h1 | exact absurd rfl h2

end Sys2Proof.Machine
end

