-- ==== Sys2Proof/Laws/Bits.lean ====
section
/-! SUPPORT. The laws of `getbits` and of the arrays built from lists. -/

namespace Sys2Proof.Machine

@[simp] theorem Cursor.next_pos (c : Cursor) : c.next.2.pos = c.pos + 1 := by
  cases c with | mk p r => cases r <;> rfl

@[simp] theorem Cursor.next_cons (p : Nat) (b : Bool) (bs : List Bool) : Cursor.next ⟨p, b :: bs⟩ = (b, ⟨p + 1, bs⟩) :=
  rfl

@[simp] theorem Cursor.getFlag_eq (c : Cursor) : c.getFlag = c.next := rfl

theorem Cursor.getBitsFrom_pos (acc n : Nat) (c : Cursor) : (Cursor.getBitsFrom acc n c).2.pos = c.pos + n := by
  induction n generalizing acc c with
  | zero => rfl
  | succ n ih => rw [Cursor.getBitsFrom, ih, Cursor.next_pos]; omega

/-- `getbits(n)` advances the cursor by `n` (00_scope.md R11). -/
@[simp] theorem Cursor.getBits_pos (n : Nat) (c : Cursor) : (c.getBits n).2.pos = c.pos + n :=
  Cursor.getBitsFrom_pos 0 n c

theorem Cursor.getBitsFrom_lt (acc n : Nat) (c : Cursor) :
    (Cursor.getBitsFrom acc n c).1 < (acc + 1) * 2 ^ n := by
  induction n generalizing acc c with
  | zero => simp [Cursor.getBitsFrom]
  | succ n ih =>
    have h := ih (2 * acc + c.next.1.toNat) c.next.2
    have hb : c.next.1.toNat ≤ 1 := Bool.toNat_le _
    rw [Cursor.getBitsFrom]
    calc _ < (2 * acc + c.next.1.toNat + 1) * 2 ^ n := h
      _ ≤ (2 * acc + 2) * 2 ^ n := Nat.mul_le_mul_right _ (by omega)
      _ = (acc + 1) * 2 ^ (n + 1) := by ring

/-- `getbits(n)` gives a number of `n` bits. -/
theorem Cursor.getBits_lt (n : Nat) (c : Cursor) : (c.getBits n).1 < 2 ^ n := by
  simpa [Cursor.getBits] using Cursor.getBitsFrom_lt 0 n c

/-- `getbits(0)` returns 0 and does not move the cursor (00_scope.md R11). -/
@[simp] theorem Cursor.getBits_zero (c : Cursor) : c.getBits 0 = (0, c) := rfl

theorem Cursor.getBitsFrom_natBits (acc n v p : Nat) (rest : List Bool) (h : v < 2 ^ n) :
    Cursor.getBitsFrom acc n ⟨p, natBits n v ++ rest⟩ = (acc * 2 ^ n + v, ⟨p + n, rest⟩) := by
  have key : ∀ (n acc p w : Nat),
      Cursor.getBitsFrom acc n ⟨p, natBits n w ++ rest⟩ = (acc * 2 ^ n + w % 2 ^ n, ⟨p + n, rest⟩) := by
    intro n
    induction n with
    | zero => intro acc p w; simp [Cursor.getBitsFrom, natBits, Nat.mod_one]
    | succ n ih =>
      intro acc p w
      have hw : w % 2 ^ (n + 1) = (w.testBit n).toNat * 2 ^ n + w % 2 ^ n := by
        rw [Nat.testBit_eq_decide_div_mod_eq, Nat.pow_succ, Nat.mod_mul]
        rcases Nat.mod_two_eq_zero_or_one (w / 2 ^ n) with e | e <;> simp [e, Nat.add_comm]
      rw [natBits, List.cons_append, Cursor.getBitsFrom, Cursor.next_cons, ih, hw]
      refine Prod.ext ?_ ?_
      · show (2 * acc + (w.testBit n).toNat) * 2 ^ n + w % 2 ^ n
          = acc * 2 ^ (n + 1) + ((w.testBit n).toNat * 2 ^ n + w % 2 ^ n)
        ring
      · show Cursor.mk (p + 1 + n) rest = ⟨p + (n + 1), rest⟩
        congr 1
        omega
  rw [key n acc p v, Nat.mod_eq_of_lt h]

/-- `getbits(n)` reads back the number whose bits stand at the cursor. -/
theorem Cursor.getBits_natBits (n v p : Nat) (rest : List Bool) (h : v < 2 ^ n) :
    Cursor.getBits n ⟨p, natBits n v ++ rest⟩ = (v, ⟨p + n, rest⟩) := by
  simpa [Cursor.getBits] using Cursor.getBitsFrom_natBits 0 n v p rest h

@[simp] theorem length_natBits (n v : Nat) : (natBits n v).length = n := by
  induction n with
  | zero => rfl
  | succ n ih => simp [natBits, ih]

@[simp] theorem length_byteBits (b : Byte) : (byteBits b).length = 8 := rfl

@[simp] theorem length_bytesBits (l : List Byte) : (bytesBits l).length = 8 * l.length := by
  induction l with
  | nil => rfl
  | cons b l ih =>
    have : bytesBits (b :: l) = byteBits b ++ bytesBits l := rfl
    rw [this, List.length_append, ih, length_byteBits, List.length_cons]
    omega

/-- The entries of a list cut or filled to length. -/
theorem fillTo_getD {α : Type} (n : Nat) (d : α) (l : List α) (i : Nat) (h : i < n) :
    (fillTo n d l).toList.getD i d = l.getD i d := by
  simp only [fillTo, Vector.toList_mk, List.getD_eq_getElem?_getD, List.getElem?_take, h, if_true]
  by_cases hi : i < l.length
  · rw [List.getElem?_append_left hi]
  · rw [List.getElem?_append_right (by omega), List.getElem?_eq_none (l := l) (by omega), List.getElem?_replicate]
    split <;> rfl

/-- What a filled list holds: entries of the list, or the filling. -/
theorem mem_fillTo {α : Type} {n : Nat} {d v : α} {l : List α} (h : v ∈ (fillTo n d l).toList) : v ∈ l ∨ v = d := by
  have h : v ∈ (l ++ List.replicate n d).take n := by simpa [fillTo] using h
  rcases List.mem_append.1 (List.mem_of_mem_take h) with h | h
  · exact .inl h
  · exact .inr (List.eq_of_mem_replicate h)

@[simp] theorem tabulate_toList {α : Type} (n : Nat) (f : Nat → α) : (tabulate n f).toList = (List.range n).map f := rfl

theorem tabulate_getD {α : Type} (n : Nat) (f : Nat → α) (d : α) (i : Nat) (h : i < n) :
    (tabulate n f).toList.getD i d = f i := by
  rw [tabulate_toList, List.getD_eq_getElem?_getD, List.getElem?_map, List.getElem?_range h]
  rfl

end Sys2Proof.Machine
end

