-- ==== Sys2Proof/Laws/Decoding.lean ====
section
/-! SUPPORT. What each operation of frame decoding can answer, said once: matching a codeword, a pair, the loops, a part, a
frame. -/

namespace Sys2Proof.Machine

/-- The reservoir keeps at most RES_KEEP bytes (42_side_info_main_data.md R415). -/
theorem length_trimRes (res : List Byte) : (trimRes res).length ≤ Config.resKeep := by
  unfold trimRes
  rw [List.length_drop]
  omega

/-- A matched codeword is one of the table's. -/
theorem matchCode_mem {codes : List Code} {n : Nat} {got : List Bool} {c c' : Cursor} {k : Code}
    (h : matchCode codes n got c = some (k, c')) : k ∈ codes := by
  induction n generalizing got c with
  | zero => simp [matchCode] at h
  | succ n ih =>
    unfold matchCode at h
    split at h
    · rename_i j hj
      simp only [Option.some.injEq, Prod.mk.injEq] at h
      exact h.1 ▸ List.mem_of_find?_eq_some hj
    · exact ih h

/-- No codeword is longer than the longest. -/
theorem length_le_longestCode {codes : List Code} {k : Code} (h : k ∈ codes) : k.bits.length ≤ longestCode codes := by
  have key : ∀ (l : List Nat) (a : Nat), a ≤ l.foldl max a ∧ ∀ x ∈ l, x ≤ l.foldl max a := by
    intro l
    induction l with
    | nil => simp
    | cons b l ih =>
      intro a
      have := ih (max a b)
      simp only [List.foldl_cons, List.mem_cons]
      refine ⟨by omega, ?_⟩
      rintro x (rfl | hx)
      · omega
      · exact this.2 x hx
  exact (key _ 0).2 _ (List.mem_map_of_mem h)

/-- In a table where no codeword begins another, a codeword that stands at the cursor is the one matched, and exactly its
bits are used (30_encoding.md R225). -/
theorem matchCode_codeword {codes : List Code} (free : ∀ k ∈ codes, ∀ j ∈ codes, k.bits <+: j.bits → k = j) {k : Code}
    (hk : k ∈ codes) (rest : List Bool) (got todo : List Bool) (n p : Nat) (he : k.bits = got ++ todo)
    (hne : todo ≠ []) (hn : todo.length ≤ n) :
    matchCode codes n got ⟨p, todo ++ rest⟩ = some (k, ⟨p + todo.length, rest⟩) := by
  induction todo generalizing got n p with
  | nil => exact absurd rfl hne
  | cons b todo ih =>
    cases n with
    | zero => simp at hn
    | succ n =>
      unfold matchCode
      simp only [List.cons_append, Cursor.next_cons]
      cases ht : todo with
      | nil =>
        subst ht
        have hf : codes.find? (fun k => k.bits == got ++ [b]) = some k := by
          cases hff : codes.find? (fun k => k.bits == got ++ [b]) with
          | none =>
            rw [List.find?_eq_none] at hff
            exact absurd (by simp [he]) (hff k hk)
          | some j =>
            have h1 := List.find?_some hff
            simp only [beq_iff_eq] at h1
            rw [free k hk j (List.mem_of_find?_eq_some hff) (by rw [he, h1])]
        simp [hf]
      | cons b2 t2 =>
        have hf : codes.find? (fun k => k.bits == got ++ [b]) = none := by
          rw [List.find?_eq_none]
          intro j hj hh
          simp only [beq_iff_eq] at hh
          have := free j hj k hk (by rw [he, hh]; exact ⟨todo, by simp⟩)
          rw [this, he, ht] at hh
          simp at hh
        rw [hf]
        simp only
        rw [← ht, ih (got ++ [b]) n (p + 1) (by simp [he]) (by simp [ht]) (by simp at hn; omega)]
        simp
        omega

/-- A pair fails only for want of a codeword (43_huffman.md R459). -/
theorem decodePair_error {t : Nat} {c : Cursor} {e : Cause} (h : decodePair t c = .error e) : e = .badHuffcode := by
  unfold decodePair at h
  split at h
  · simp at h
  · simp only at h
    split at h <;> simp at h
    exact h.symm

/-- What the big_values loop fails with (43_huffman.md R459, R460). -/
theorem bigValuesLoop_error {table : Nat → Nat} {partEnd n i : Nat} {c : Cursor} {e : Cause}
    (h : bigValuesLoop table partEnd n i c = .error e) : e = .huffmanOverrun ∨ e = .badHuffcode := by
  induction n generalizing i c with
  | zero => simp [bigValuesLoop] at h
  | succ n ih =>
    simp only [bigValuesLoop] at h
    split at h
    · rename_i hp
      simp only [Except.error.injEq] at h
      subst h
      exact .inr (decodePair_error hp)
    · split at h
      · simp only [Except.error.injEq] at h
        exact .inl h.symm
      · split at h
        · rename_i hp
          simp only [Except.error.injEq] at h
          subst h
          exact ih hp
        · simp at h

/-- What a part's quantized values fail with, the table check first (43_huffman.md R453, R459, R460). -/
theorem decodeSpectrum_error {freq partEnd : Nat} {g : GranuleInfo} {c : Cursor} {e : Cause}
    (h : decodeSpectrum freq g partEnd c = .error e) :
    (badTables freq g = true ∧ e = .badTable) ∨
      (badTables freq g = false ∧ (e = .huffmanOverrun ∨ e = .badHuffcode)) := by
  unfold decodeSpectrum at h
  split at h
  · rename_i hb
    simp only [Except.error.injEq] at h
    exact .inl ⟨hb, h.symm⟩
  · rename_i hb
    split at h
    · rename_i hp
      simp only [Except.error.injEq] at h
      subst h
      exact .inr ⟨by simpa using hb, bigValuesLoop_error hp⟩
    · simp at h

/-- What a channel's side-information check fails with (42_side_info_main_data.md R419). -/
theorem granuleCheck_some {g : GranuleInfo} {c : Cause} (h : granuleCheck g = some c) :
    c = .badBlockType ∨ c = .bigValuesRange := by
  unfold granuleCheck at h
  repeat' split at h
  all_goals simp at h
  · exact .inl h.symm
  · exact .inr h.symm

/-- The first block that fails decides (42_side_info_main_data.md R419). -/
theorem sideInfoCheck_some {nch : Nat} {x : SideInfo} {c : Cause} :
    sideInfoCheck nch x = some c ↔
      ∃ before g after, granulesInOrder nch x = before ++ g :: after ∧ (∀ b ∈ before, granuleCheck b = none) ∧
        granuleCheck g = some c := by
  unfold sideInfoCheck
  rw [List.findSome?_eq_some_iff]
  constructor
  · rintro ⟨a, g, b, h1, h2, h3⟩
    exact ⟨a, g, b, h1, h3, h2⟩
  · rintro ⟨a, g, b, h1, h2, h3⟩
    exact ⟨a, g, b, h1, h3, h2⟩

/-- What reading the long scalefactors of a list of bands does: the cursors `d` between them, and the value of each
(42_side_info_main_data.md R423). -/
theorem readLong_spec (copied : Nat → Bool) (prev : Scalefac) (g : GranuleInfo) (l : List Nat) (c : Cursor) :
    ∃ d : Nat → Cursor, d 0 = c ∧ d l.length = (readLong copied prev g l c).2 ∧ ∀ k, k < l.length →
      if copied (l.getD k 0) then
        (readLong copied prev g l c).1.getD k 0 = prev.long.toList.getD (l.getD k 0) 0 ∧ d (k + 1) = d k
      else (d k).getBits (longWidthBits g (l.getD k 0)) = ((readLong copied prev g l c).1.getD k 0, d (k + 1)) := by
  induction l generalizing c with
  | nil => exact ⟨fun _ => c, rfl, rfl, by simp⟩
  | cons b l ih =>
    by_cases hb : copied b
    · obtain ⟨d, h0, h1, h2⟩ := ih c
      simp only [readLong, hb, if_true]
      refine ⟨fun n => match n with | 0 => c | n + 1 => d n, rfl, by simpa using h1, fun k hk => ?_⟩
      cases k with
      | zero => simp [hb, h0]
      | succ k => simpa using h2 k (by simpa using hk)
    · obtain ⟨d, h0, h1, h2⟩ := ih (c.getBits (longWidthBits g b)).2
      simp only [readLong, hb]
      refine ⟨fun n => match n with | 0 => c | n + 1 => d n, rfl, by simpa using h1, fun k hk => ?_⟩
      cases k with
      | zero => simp [hb, h0]
      | succ k => simpa using h2 k (by simpa using hk)

/-- What reading the short scalefactors of a list of bands does: the cursors `d` between them, and the value of each band
and window (42_side_info_main_data.md R424, R425). -/
theorem readShort_spec (g : GranuleInfo) (l : List Nat) (c : Cursor) :
    (readShort g l c).1.length = 3 * l.length ∧
    ∃ d : Nat → Cursor, d 0 = c ∧ d (3 * l.length) = (readShort g l c).2 ∧ ∀ k w, k < l.length → w < 3 →
      (d (3 * k + w)).getBits (shortWidthBits g (l.getD k 0)) =
        ((readShort g l c).1.getD (3 * k + w) 0, d (3 * k + w + 1)) := by
  induction l generalizing c with
  | nil => exact ⟨rfl, fun _ => c, rfl, rfl, by simp⟩
  | cons b l ih =>
    let w0 := c.getBits (shortWidthBits g b)
    let w1 := w0.2.getBits (shortWidthBits g b)
    let w2 := w1.2.getBits (shortWidthBits g b)
    obtain ⟨e, d, h0, h1, h2⟩ := ih w2.2
    simp only [readShort]
    refine ⟨by change (_ :: _ :: _ :: (readShort g l w2.2).1).length = _; simp only [List.length_cons, e]; omega,
      fun n => match n with | 0 => c | 1 => w0.2 | 2 => w1.2 | n + 3 => d n, rfl, by simpa [Nat.mul_add] using h1,
      fun k w hk hw => ?_⟩
    cases k with
    | zero =>
      interval_cases w
      · simp [w0]
      · simp [w0, w1]
      · simp [w0, w1, w2, h0]
    | succ k =>
      rw [show 3 * (k + 1) + w = 3 * k + w + 3 by omega]
      simpa using h2 k w (by simpa using hk) hw

/-- What the big_values loop writes when it ends well: the cursors `c` between the pairs, the pairs `v`, and the lines
(43_huffman.md R456). -/
theorem bigValuesLoop_ok {table : Nat → Nat} {partEnd n i : Nat} {c0 cn : Cursor} {l : List Int}
    (h : bigValuesLoop table partEnd n i c0 = .ok (l, cn)) :
    ∃ (c : Nat → Cursor) (v : Nat → Int × Int), c 0 = c0 ∧ c n = cn ∧ l.length = 2 * n ∧ ∀ j, j < n →
      decodePair (table (i + 2 * j)) (c j) = .ok (v j, c (j + 1)) ∧ (c (j + 1)).pos ≤ partEnd ∧
      l.getD (2 * j) 0 = (v j).1 ∧ l.getD (2 * j + 1) 0 = (v j).2 := by
  induction n generalizing i c0 l with
  | zero =>
    simp only [bigValuesLoop, Except.ok.injEq, Prod.mk.injEq] at h
    exact ⟨fun _ => c0, fun _ => (0, 0), rfl, h.2, by simp [← h.1], by simp⟩
  | succ n ih =>
    simp only [bigValuesLoop] at h
    split at h
    · simp at h
    · rename_i p c1 hp
      split at h
      · simp at h
      · rename_i hle
        split at h
        · simp at h
        · rename_i l' c2 hl
          simp only [Except.ok.injEq, Prod.mk.injEq] at h
          obtain ⟨rfl, rfl⟩ := h
          obtain ⟨c, v, h1, h2, h3, h4⟩ := ih hl
          refine ⟨fun k => match k with | 0 => c0 | k + 1 => c k, fun k => match k with | 0 => p | k + 1 => v k, rfl,
            h2, by simp only [List.length_cons]; omega, fun j hj => ?_⟩
          cases j with
          | zero => exact ⟨by simpa [h1] using hp, by simp only [h1]; omega, rfl, rfl⟩
          | succ j =>
            rw [show i + 2 * (j + 1) = i + 2 + 2 * j by omega, show 2 * (j + 1) = 2 * j + 1 + 1 by omega]
            simpa using h4 j (by omega)

/-- What the count1 loop writes: the cursors `d` between its `m` quadruples, the quadruples `q`, the lines, and why it
ends (43_huffman.md R457, R462). -/
theorem count1Loop_spec (sel : Bool) (partEnd n : Nat) (c0 : Cursor) :
    ∃ (d : Nat → Cursor) (q : Nat → List Int) (m : Nat), d 0 = c0 ∧ m ≤ n ∧
      (count1Loop sel partEnd n c0).length = 4 * m ∧
      (∀ j, j < m → (d j).pos < partEnd ∧ decodeQuad sel (d j) = (q j, d (j + 1)) ∧ (d (j + 1)).pos ≤ partEnd ∧
        ∀ e, e < 4 → (count1Loop sel partEnd n c0).getD (4 * j + e) 0 = (q j).getD e 0) ∧
      (m = n ∨ partEnd ≤ (d m).pos ∨ partEnd < (decodeQuad sel (d m)).2.pos) := by
  induction n generalizing c0 with
  | zero => exact ⟨fun _ => c0, fun _ => [], 0, rfl, by omega, rfl, by simp, .inl rfl⟩
  | succ n ih =>
    simp only [count1Loop]
    by_cases h : c0.pos < partEnd
    · simp only [h, if_true]
      by_cases h2 : partEnd < (decodeQuad sel c0).2.pos
      · exact ⟨fun _ => c0, fun _ => [], 0, rfl, by omega, by simp [h2], by simp, .inr (.inr h2)⟩
      · obtain ⟨d, q, m, h0, hm, hl, h4, h5⟩ := ih (decodeQuad sel c0).2
        have four : (decodeQuad sel c0).1.length = 4 := rfl
        simp only [h2, if_false]
        refine ⟨fun k => match k with | 0 => c0 | k + 1 => d k,
          fun k => match k with | 0 => (decodeQuad sel c0).1 | k + 1 => q k, m + 1, rfl, by omega,
          by simp only [List.length_append, hl, four]; omega, fun j hj => ?_, h5.imp_left (by omega)⟩
        cases j with
        | zero =>
          refine ⟨h, by simp [h0], by simp only [h0]; omega, fun e he => ?_⟩
          rw [List.getD_append _ _ _ _ (by omega), Nat.mul_zero, Nat.zero_add]
        | succ j =>
          obtain ⟨a1, a2, a3, a4⟩ := h4 j (by omega)
          refine ⟨a1, a2, a3, fun e he => ?_⟩
          rw [List.getD_append_right _ _ _ _ (by omega), four, show 4 * (j + 1) + e - 4 = 4 * j + e by omega]
          exact a4 e he
    · exact ⟨fun _ => c0, fun _ => [], 0, rfl, by omega, by simp [h], by simp, .inr (.inl (Nat.le_of_not_lt h))⟩

theorem sideInfoCheck_none {nch : Nat} {x : SideInfo} :
    sideInfoCheck nch x = none ↔ ∀ b ∈ granulesInOrder nch x, granuleCheck b = none := by
  unfold sideInfoCheck
  rw [List.findSome?_eq_none_iff]

end Sys2Proof.Machine
end

