-- ==== Sys2Proof/Laws/Fx.lean ====
section
/-! SUPPORT. The laws of the numeric configuration: what the header fields that decoding ignores leave alone, the zero
history, and the histories of the reference instance. -/

namespace Sys2Proof

@[simp] theorem Header.heeded_nch (h : Header) : h.heeded.nch = h.nch := rfl
@[simp] theorem Header.heeded_joint (h : Header) : h.heeded.joint = h.joint := rfl

/-- Ignoring the ignored fields twice is ignoring them once. -/
@[simp] theorem Header.heeded_heeded (h : Header) : h.heeded.heeded = h.heeded := by
  cases hj : h.joint <;> simp [heeded, joint] at hj ⊢ <;> simp [hj]

/-- private_bit, copyright, original and emphasis are ignored (30_encoding.md R211, R215). -/
theorem Header.heeded_ignored (h : Header) (p c o : BitVec 1) (e : BitVec 2) :
    ({ h with privateBit := p, copyright := c, original := o, emphasis := e } : Header).heeded = h.heeded := rfl

/-- mode_extension is ignored outside joint stereo (30_encoding.md R214). -/
theorem Header.heeded_extension {h : Header} (m : BitVec 2) (hm : h.mode ≠ 1#2) :
    ({ h with modeExtension := m } : Header).heeded = h.heeded := by
  simp [heeded, joint, hm]

/-- The joint-stereo tools of a frame are those of its header as decoding acts on it. -/
theorem Header.heeded_tools (h : Header) :
    h.heeded.msStereo = h.msStereo ∧ h.heeded.intensityStereo = h.intensityStereo := by
  by_cases hm : h.mode = 1#2 <;> simp [heeded, joint, msStereo, intensityStereo, hm]

namespace Machine

/-- The zero history is silent. -/
theorem silentSyn_zero : silentSyn zeroSyn = true := by
  simp only [silentSyn, zeroSyn, Vector.toList_replicate, Bool.and_eq_true, List.all_eq_true, decide_eq_true_eq]
  refine ⟨fun r hr v hv => ?_, fun v hv => List.eq_of_mem_replicate hv⟩
  rw [List.eq_of_mem_replicate hr, Vector.toList_replicate] at hv
  exact List.eq_of_mem_replicate hv

/-- Two parts that differ in ignored flags only are the same to the numeric stages (42_side_info_main_data.md R419;
44_requantize_stereo.md R503). -/
theorem heededPart_same {p q : Part} (h : SameButIgnored p q) : heededPart q = heededPart p := by
  obtain ⟨h1, h2, h3, h4, h5⟩ := h
  obtain ⟨g, f, l⟩ := q
  simp only at h1 h2 h3 h4 h5
  subst h1 h2
  have hb : g.blockType = p.info.blockType := by rw [h3]
  simp only [heededPart, heededInfo, hb]
  by_cases two : p.info.blockType = 2
  · by_cases hm : p.info.mixedBlock = false
    · simp only [two, h4 two, hm]
      rw [h3]
      simp
    · simp only [two, h4 two, h5 (by tauto)]
      rw [h3]
  · simp only [two, h5 (by tauto)]
    rw [h3]
    simp

/-- Two channels that differ in scfsi and in ignored flags only are the same to the numeric stages
(42_side_info_main_data.md R401). -/
theorem heededChan_same {x : ChanIn} {p q : Part} (a : Nat) (hp : SameButIgnored x.g0 p) (hq : SameButIgnored x.g1 q) :
    heededChan ⟨a, p, q⟩ = heededChan x ∧ silentChan ⟨a, p, q⟩ = silentChan x := by
  simp [heededChan, silentChan, heededPart_same hp, heededPart_same hq, hp.2.1, hq.2.1]

/-- The histories of FX_ideal are the reference's (45_filterbank.md R590). -/
theorem fxSynAfter_ideal (D : Nat → ℝ) (fs : List FrameIn) :
    fxSynAfter RefSyn.zero (fxIdeal D) fs = (refSynAfter D 0 fs, refSynAfter D 1 fs) := by
  induction fs with
  | nil => rfl
  | cons f fs ih =>
    simp only [fxSynAfter, refSynAfter, ih, fxIdeal]
    by_cases h : f.header.nch = 1
    · simp [h, idealChannel, silentOut, frameSyn]
    · simp [h, idealChannel]

end Machine

end Sys2Proof
end

