-- ==== Sys2Proof/Laws/Memory.lean ====
section
/-! SUPPORT. The laws of the input buffer's bytes: read after write, reads elsewhere, the refill's move, and the canonical
form that every operation keeps. -/

namespace Sys2Proof.Machine

@[simp] theorem Mem.read_nil (a : Nat) : Mem.read [] a = 0#8 := rfl

theorem Mem.read_cons (k a : Nat) (v : Byte) (m : Mem) :
    Mem.read ((k, v) :: m) a = if a = k then v else m.read a := rfl

/-- An address above which every entry lies reads 0. -/
theorem Mem.read_eq_zero_of_lt {m : Mem} {a : Nat} (h : ∀ c ∈ m, a < c.1) : m.read a = 0#8 := by
  induction m with
  | nil => rfl
  | cons c m ih =>
    obtain ⟨k, v⟩ := c
    have hk : a < k := h (k, v) (by simp)
    rw [Mem.read_cons, if_neg (by omega)]
    exact ih fun c hc => h c (by simp [hc])

theorem Mem.wf_cons {k : Nat} {v : Byte} {m : Mem} :
    Mem.wf ((k, v) :: m) = true ↔ v ≠ 0#8 ∧ (∀ c ∈ m, k < c.1) ∧ m.wf = true := by
  simp [Mem.wf, and_assoc]

/-- A write leaves every other address as it was. -/
theorem Mem.read_write_other (m : Mem) {a x : Nat} (b : Byte) (h : x ≠ a) : (m.write a b).read x = m.read x := by
  induction m with
  | nil => by_cases hb : b = 0#8 <;> simp [Mem.write, hb, Mem.read_cons, h]
  | cons c m ih =>
    obtain ⟨k, v⟩ := c
    simp only [Mem.write]
    split
    · split <;> simp [Mem.read_cons, h]
    · split
      · subst_vars
        split <;> simp [Mem.read_cons, h]
      · simp [Mem.read_cons, ih]

/-- A read after a write of the same address gives the byte written. -/
theorem Mem.read_write_same {m : Mem} (h : m.wf = true) (a : Nat) (b : Byte) : (m.write a b).read a = b := by
  induction m with
  | nil => by_cases hb : b = 0#8 <;> simp [Mem.write, hb, Mem.read_cons]
  | cons c m ih =>
    obtain ⟨k, v⟩ := c
    obtain ⟨-, hlt, hm⟩ := Mem.wf_cons.1 h
    simp only [Mem.write]
    split
    · rename_i hk
      split
      · subst_vars
        rw [Mem.read_cons, if_neg (by omega)]
        exact Mem.read_eq_zero_of_lt fun c hc => lt_trans hk (hlt c hc)
      · simp [Mem.read_cons]
    · split
      · subst_vars
        split
        · subst_vars
          exact Mem.read_eq_zero_of_lt hlt
        · simp [Mem.read_cons]
      · rename_i hk
        rw [Mem.read_cons, if_neg hk]
        exact ih hm

/-- What a write lists: what was listed, or the new byte. -/
theorem Mem.mem_write {m : Mem} {a : Nat} {b : Byte} {c : Host.Cell} (h : c ∈ m.write a b) : c ∈ m ∨ c = (a, b) := by
  induction m with
  | nil =>
    by_cases hb : b = 0#8 <;> simp [Mem.write, hb] at h
    exact .inr h
  | cons d m ih =>
    obtain ⟨k, v⟩ := d
    simp only [Mem.write] at h
    split at h
    · split at h
      · exact .inl h
      · rcases List.mem_cons.1 h with h | h
        · exact .inr h
        · exact .inl h
    · split at h
      · split at h
        · exact .inl (by simp [h])
        · rcases List.mem_cons.1 h with h | h
          · exact .inr h
          · exact .inl (by simp [h])
      · rcases List.mem_cons.1 h with h | h
        · exact .inl (by simp [h])
        · rcases ih h with h | h
          · exact .inl (by simp [h])
          · exact .inr h

/-- A write keeps the canonical form. -/
theorem Mem.wf_write {m : Mem} (h : m.wf = true) (a : Nat) (b : Byte) : (m.write a b).wf = true := by
  induction m with
  | nil => by_cases hb : b = 0#8 <;> simp [Mem.write, hb, Mem.wf]
  | cons c m ih =>
    obtain ⟨k, v⟩ := c
    obtain ⟨hv, hlt, hm⟩ := Mem.wf_cons.1 h
    simp only [Mem.write]
    split
    · rename_i hk
      split
      · exact h
      · rename_i hb
        refine Mem.wf_cons.2 ⟨hb, fun c hc => ?_, h⟩
        rcases List.mem_cons.1 hc with rfl | hc
        · exact hk
        · exact lt_trans hk (hlt c hc)
    · split
      · subst_vars
        split
        · exact hm
        · rename_i hb
          exact Mem.wf_cons.2 ⟨hb, hlt, hm⟩
      · refine Mem.wf_cons.2 ⟨hv, fun c hc => ?_, ih hm⟩
        rcases Mem.mem_write hc with hc | rfl
        · exact hlt c hc
        · show k < a
          omega

theorem Mem.read_append (m n : Mem) (a : Nat) :
    Mem.read (m ++ n) a = if ∃ c ∈ m, c.1 = a then m.read a else Mem.read n a := by
  induction m with
  | nil => simp
  | cons c m ih =>
    obtain ⟨k, v⟩ := c
    by_cases h : a = k
    · simp [Mem.read_cons, h]
    · have : ¬ k = a := fun e => h e.symm
      simp [Mem.read_cons, h, this, ih]

theorem Mem.read_filter (m : Mem) (p : Nat → Bool) (a : Nat) (h : p a = true) :
    Mem.read (m.filter fun c => p c.1) a = m.read a := by
  induction m with
  | nil => rfl
  | cons c m ih =>
    obtain ⟨k, v⟩ := c
    by_cases hk : p k = true
    · simp [hk, Mem.read_cons, ih]
    · have : a ≠ k := fun e => hk (e ▸ h)
      simp [hk, Mem.read_cons, ih, this]

theorem Mem.read_filter_out (m : Mem) (p : Nat → Bool) (a : Nat) (h : p a = false) :
    Mem.read (m.filter fun c => p c.1) a = 0#8 := by
  induction m with
  | nil => rfl
  | cons c m ih =>
    obtain ⟨k, v⟩ := c
    by_cases hk : p k = true
    · have : a ≠ k := fun e => by simp [e, hk] at h
      simp [hk, Mem.read_cons, ih, this]
    · simp [hk, ih]

theorem Mem.read_shift (m : Mem) (d a : Nat) (h : ∀ c ∈ m, d ≤ c.1) :
    Mem.read (m.map fun c => (c.1 - d, c.2)) a = m.read (d + a) := by
  induction m with
  | nil => rfl
  | cons c m ih =>
    obtain ⟨k, v⟩ := c
    have hk : d ≤ k := h (k, v) (by simp)
    have ih := ih fun c hc => h c (by simp [hc])
    simp only [List.map_cons, Mem.read_cons, ih]
    by_cases e : a = k - d
    · rw [if_pos e, if_pos (by omega)]
    · rw [if_neg e, if_neg (by omega)]

theorem Mem.read_of_not_mem {m : Mem} {a : Nat} (h : ∀ c ∈ m, c.1 ≠ a) : m.read a = 0#8 := by
  induction m with
  | nil => rfl
  | cons c m ih =>
    obtain ⟨k, v⟩ := c
    rw [Mem.read_cons, if_neg (fun e => h (k, v) (by simp) e.symm)]
    exact ih fun c hc => h c (by simp [hc])

/-- The refill's move (40_bitstream_reader.md R303): the unconsumed bytes at the front, in order, and the bytes above
them as they were. -/
theorem Mem.read_moveDown (m : Mem) (pos avail a : Nat) :
    (m.moveDown pos avail).read a = if a < avail - pos then m.read (pos + a) else m.read a := by
  have hsh : Mem.read ((m.filter fun c => pos ≤ c.1 && c.1 < avail).map fun c => (c.1 - pos, c.2)) a
      = Mem.read (m.filter fun c => pos ≤ c.1 && c.1 < avail) (pos + a) :=
    Mem.read_shift _ _ _ fun c hc => by simp at hc; exact hc.2.1
  rw [Mem.moveDown, Mem.read_append]
  by_cases ha : a < avail - pos
  · rw [if_pos ha]
    have hin : Mem.read (m.filter fun c => pos ≤ c.1 && c.1 < avail) (pos + a) = m.read (pos + a) :=
      Mem.read_filter m (fun k => pos ≤ k && k < avail) _ (by simp; omega)
    split
    · rw [hsh, hin]
    · rename_i hno
      have h0 : Mem.read ((m.filter fun c => pos ≤ c.1 && c.1 < avail).map fun c => (c.1 - pos, c.2)) a = 0#8 :=
        Mem.read_of_not_mem fun c hc e => hno ⟨c, hc, e⟩
      rw [← hin, ← hsh, h0]
      exact Mem.read_filter_out m (fun k => avail - pos ≤ k) a (by simp; omega)
  · rw [if_neg ha, if_neg]
    · exact Mem.read_filter m (fun k => avail - pos ≤ k) a (by simp; omega)
    · rintro ⟨c, hc, e⟩
      simp only [List.mem_map, List.mem_filter, Bool.and_eq_true, decide_eq_true_eq] at hc
      obtain ⟨d, ⟨-, h1, h2⟩, rfl⟩ := hc
      simp at e
      omega

theorem Mem.wf_filter {m : Mem} (p : Host.Cell → Bool) (h : m.wf = true) : Mem.wf (m.filter p) = true := by
  induction m with
  | nil => rfl
  | cons c m ih =>
    obtain ⟨k, v⟩ := c
    obtain ⟨hv, hlt, hm⟩ := Mem.wf_cons.1 h
    by_cases hp : p (k, v) = true
    · rw [List.filter_cons, if_pos hp]
      exact Mem.wf_cons.2 ⟨hv, fun c hc => hlt c (List.mem_filter.1 hc).1, ih hm⟩
    · rw [List.filter_cons, if_neg hp]
      exact ih hm

theorem Mem.wf_shift {m : Mem} (d : Nat) (hd : ∀ c ∈ m, d ≤ c.1) (h : m.wf = true) :
    Mem.wf (m.map fun c => (c.1 - d, c.2)) = true := by
  induction m with
  | nil => rfl
  | cons c m ih =>
    obtain ⟨k, v⟩ := c
    obtain ⟨hv, hlt, hm⟩ := Mem.wf_cons.1 h
    have hk : d ≤ k := hd (k, v) (by simp)
    refine Mem.wf_cons.2 ⟨hv, fun c hc => ?_, ih (fun c hc => hd c (by simp [hc])) hm⟩
    obtain ⟨e, he, rfl⟩ := List.mem_map.1 hc
    have := hlt e he
    show k - d < e.1 - d
    omega

theorem Mem.wf_append {m n : Mem} (hm : m.wf = true) (hn : n.wf = true) (h : ∀ c ∈ m, ∀ d ∈ n, c.1 < d.1) :
    Mem.wf (m ++ n) = true := by
  induction m with
  | nil => exact hn
  | cons c m ih =>
    obtain ⟨k, v⟩ := c
    obtain ⟨hv, hlt, hm'⟩ := Mem.wf_cons.1 hm
    refine Mem.wf_cons.2 ⟨hv, fun d hd => ?_, ih hm' fun c hc => h c (by simp [hc])⟩
    rcases List.mem_append.1 hd with hd | hd
    · exact hlt d hd
    · exact h (k, v) (by simp) d hd

/-- The refill's move keeps the canonical form. -/
theorem Mem.wf_moveDown {m : Mem} (h : m.wf = true) (pos avail : Nat) : (m.moveDown pos avail).wf = true := by
  refine Mem.wf_append (Mem.wf_shift _ (fun c hc => ?_) (Mem.wf_filter _ h)) (Mem.wf_filter _ h) fun c hc d hd => ?_
  · simp at hc
    exact hc.2.1
  · simp only [List.mem_map, List.mem_filter, Bool.and_eq_true, decide_eq_true_eq] at hc hd
    obtain ⟨e, ⟨-, h1, h2⟩, rfl⟩ := hc
    have := hd.2
    show e.1 - pos < d.1
    omega

/-- What the refill's move lists lies below `avail` or was listed before. -/
theorem Mem.mem_moveDown {m : Mem} {pos avail : Nat} {c : Host.Cell} (h : c ∈ m.moveDown pos avail) :
    c.1 < avail ∨ c ∈ m := by
  rcases List.mem_append.1 h with h | h
  · simp only [List.mem_map, List.mem_filter, Bool.and_eq_true, decide_eq_true_eq] at h
    obtain ⟨e, ⟨-, h1, h2⟩, rfl⟩ := h
    left
    show e.1 - pos < avail
    omega
  · exact .inr (List.mem_filter.1 h).1

@[simp] theorem Mem.length_slice (m : Mem) (a n : Nat) : (m.slice a n).length = n := by simp [Mem.slice]

/-- A slice depends on the bytes it takes only. -/
theorem Mem.slice_congr {m k : Mem} {a n : Nat} (h : ∀ x, x < a + n → k.read x = m.read x) :
    k.slice a n = m.slice a n := by
  refine List.map_congr_left fun i hi => h _ ?_
  have := List.mem_range.1 hi
  omega

/-- A slice in two pieces. -/
theorem Mem.slice_append (m : Mem) (a n k : Nat) : m.slice a (n + k) = m.slice a n ++ m.slice (a + n) k := by
  simp [Mem.slice, List.range_add, Function.comp_def, Nat.add_assoc]

end Sys2Proof.Machine
end

