-- ==== Sys2Proof/Laws/PerInstr.lean ====
section
/-! SUPPORT. The family of statements made for every command: its word is legal and carries it. -/

namespace Sys2Proof.Laws.Encoding

/-- The command's fields are legal, and its word decodes to it, numbered as the opcode table numbers it (30_encoding.md
R200 to R203). -/
def Statement (i : Instr) : Prop :=
  i.wellFormed = true ∧ decode (encode i) = .ok i ∧ decodeTableWord 32 (encode i).toNat = some i

theorem nop : Statement .nop := by unfold Statement; decide

theorem reset : Statement .reset := by unfold Statement; decide

theorem openFile : Statement .openFile := by unfold Statement; decide

theorem pull : Statement .pull := by unfold Statement; decide

theorem close : Statement .close := by unfold Statement; decide

theorem refillDone : Statement .refillDone := by unfold Statement; decide

theorem refillDoneErr : Statement .refillDoneErr := by unfold Statement; decide

theorem irqAck : Statement .irqAck := by unfold Statement; decide

end Sys2Proof.Laws.Encoding
end

