-- ==== Sys2Proof/Laws/Step.lean ====
section
/-! SUPPORT. What each shared operation and a step can do, said once: acceptance, the commands, the header stage, an
iteration, an engine step, a step. -/

namespace Sys2Proof.Machine

/-- A buffer that lists nothing from IBUF_CAP on reads 0 in the guard region (10_state.md R90). -/
theorem read_guard {s : State} (h : ∀ c ∈ s.ibuf, c.1 < s.ibufCap) (a : Nat) (ha : inGuard s a) : s.ibuf.read a = 0 :=
  Mem.read_of_not_mem fun c hc => Nat.ne_of_lt (Nat.lt_of_lt_of_le (h c hc) ha.1)

/-- No byte of the guard region is input or staged (40_bitstream_reader.md R309). -/
theorem guard_hidden {s : State} (h : ReaderInv s) (a : Nat) (ha : inGuard s a) : s.avail + s.refillCount ≤ a := by
  obtain ⟨-, -, hA, hC, hR, -, hQ, -⟩ := h
  obtain ⟨ha, -⟩ := ha
  by_cases hn : s.engine = .needData
  · have := hR hn
    omega
  · have := hQ hn
    omega

/-- A legal command is rejected with an ERR code and no other effect, or runs (47_session_commands.md R681). -/
theorem issue_cases (i : Instr) (run : State → State) (s : State) :
    (∃ e, rejection i s.engine s.session = some e ∧ issue i run s = raiseHostError e s) ∨
      (rejection i s.engine s.session = none ∧ issue i run s = run s) := by
  unfold issue
  cases h : rejection i s.engine s.session with
  | some e => exact .inl ⟨e, rfl, rfl⟩
  | none => exact .inr ⟨rfl, rfl⟩

theorem issue_rejected {i : Instr} {run : State → State} {s : State} {e : HostErr}
    (h : rejection i s.engine s.session = some e) : issue i run s = raiseHostError e s := by simp [issue, h]

theorem issue_accepted {i : Instr} {run : State → State} {s : State}
    (h : rejection i s.engine s.session = none) : issue i run s = run s := by simp [issue, h]

/-- The effect of each command once accepted. -/
def effectOf : Instr → State → State
  | .nop           => nopEffect
  | .reset         => resetBlock
  | .openFile      => openEffect
  | .pull          => pullEffect
  | .close         => closeEffect
  | .refillDone    => refillEffect false
  | .refillDoneErr => refillEffect true
  | .irqAck        => accept

/-- Every command answers a next state: the acceptance around its effect. -/
theorem exec_eq_issue (i : Instr) (s : State) : exec i s = .next (issue i (effectOf i) s) := by cases i <;> rfl

/-- When a command is accepted, it is run in a state that the table of R682 names. -/
theorem accepted_state {i : Instr} {e : Engine} {n : Session} (h : rejection i e n = none) :
    match i with
    | .nop | .openFile | .close => e = .idle
    | .pull => e = .idle ∧ n ≠ .uninitialized
    | .refillDone | .refillDoneErr => e = .needData
    | .reset | .irqAck => True := by
  cases i
  case pull =>
    by_cases he : e = .idle
    · by_cases hn : n = .uninitialized
      · simp [rejection, he, hn] at h
      · exact ⟨he, hn⟩
    · simp [rejection, he] at h
  case reset => trivial
  case irqAck => trivial
  all_goals simpa [rejection] using h

/-- PULL in EXHAUSTED (47_session_commands.md R670). -/
theorem pullEffect_exhausted {s : State} (h : s.session = .exhausted) :
    pullEffect s = complete { accept s with
      pcmValid := false, pcmLength := 0, pcmChannels := 0, eos := true } := by
  unfold pullEffect
  rw [if_pos h]

/-- PULL elsewhere (47_session_commands.md R670). -/
theorem pullEffect_streaming {s : State} (h : s.session ≠ .exhausted) :
    pullEffect s = { accept s with
      pcmValid := false, pcmLength := 0, pcmChannels := 0, eos := false, engine := .busy, pending := .pulling } := by
  unfold pullEffect
  rw [if_neg h]

/-- REFILL_DONE for an OPEN (47_session_commands.md R661). -/
theorem refillEffect_open {s : State} (h : s.pending = .opening) :
    refillEffect false s = complete { accept s with
      refillErr := false, avail := s.avail + s.refillCount, eof := s.eof || decide (s.refillCount = 0),
      session := .streaming } := by
  unfold refillEffect completeResponse completeOpen
  simp [h]
  rfl

/-- REFILL_DONE.ERR for an OPEN (47_session_commands.md R661). -/
theorem refillEffect_open_err {s : State} (h : s.pending = .opening) :
    refillEffect true s = complete { accept s with
      refillErr := true, avail := 0, pos := 0, eof := false, session := .uninitialized, err := .fileError } := by
  unfold refillEffect completeResponse completeOpen
  simp [h]
  rfl

/-- REFILL_DONE for a PULL (47_session_commands.md R675). -/
theorem refillEffect_pull {s : State} (h : s.pending ≠ .opening) :
    refillEffect false s = { accept s with
      refillErr := false, avail := s.avail + s.refillCount, eof := s.eof || decide (s.refillCount = 0), refillMax := 0,
      refillCount := 0, engine := .busy } := by
  unfold refillEffect completeResponse completeOpen
  simp [h]
  rfl

/-- REFILL_DONE.ERR for a PULL (47_session_commands.md R675). -/
theorem refillEffect_pull_err {s : State} (h : s.pending ≠ .opening) :
    refillEffect true s = { accept s with
      refillErr := true, eof := true, refillMax := 0, refillCount := 0, engine := .busy } := by
  unfold refillEffect completeResponse completeOpen
  simp [h]

/-- The three cases of an IN_DATA write (40_bitstream_reader.md R304). -/
theorem writeInData_cases (v : Word) (s : State) :
    (s.engine ≠ .needData ∧ writeInData v s = raiseHostError .protocol s) ∨
    (s.engine = .needData ∧ s.refillCount = s.refillMax ∧ writeInData v s = raiseHostError .overflow s) ∨
    (s.engine = .needData ∧ s.refillCount ≠ s.refillMax ∧ writeInData v s = { s with
      ibuf := s.ibuf.write (s.avail + s.refillCount) (inDataByte v), refillCount := s.refillCount + 1 }) := by
  unfold writeInData
  by_cases h : s.engine = .needData
  · by_cases h2 : s.refillCount = s.refillMax
    · exact .inr (.inl ⟨h, h2, by simp [h, h2]⟩)
    · exact .inr (.inr ⟨h, h2, by simp [h, h2]⟩)
  · exact .inl ⟨h, by simp [h]⟩

/-- What no command but RESET writes. -/
theorem effectOf_keeps {i : Instr} (s : State) (hi : i ≠ .reset) :
    (effectOf i s).ctrl = s.ctrl ∧ (effectOf i s).dbgSel = s.dbgSel ∧ (effectOf i s).ibuf = s.ibuf ∧
      (effectOf i s).pcmMem = s.pcmMem ∧ (effectOf i s).ibufCap = s.ibufCap ∧ (effectOf i s).inputs = s.inputs ∧
      (effectOf i s).busData = s.busData ∧ (effectOf i s).busError = s.busError ∧ (effectOf i s).epoch = s.epoch := by
  cases i with
  | reset => exact absurd rfl hi
  | pull =>
    by_cases h : s.session = .exhausted
    · simp [effectOf, pullEffect_exhausted h]
    · simp [effectOf, pullEffect_streaming h]
  | refillDone =>
    by_cases h : s.pending = .opening
    · simp [effectOf, refillEffect_open h]
    · simp [effectOf, refillEffect_pull h]
  | refillDoneErr =>
    by_cases h : s.pending = .opening
    · simp [effectOf, refillEffect_open_err h]
    · simp [effectOf, refillEffect_pull_err h]
  | _ => simp [effectOf, nopEffect, openEffect, closeEffect]

/-- What the header stage's frame outcome says (41_frame_header.md R350 to R359). -/
theorem headerStage_frame {s : State} {H : Word} (h : headerStage s = .frame H) :
    ensure s 4 = true ∧ H = headerWordAt s ∧ syncOk (headerOfWord H) = true ∧ headerValid (headerOfWord H) = true ∧
      freeFormat (headerOfWord H) = false ∧ lockBroken s.lock (headerOfWord H) = false ∧
      ensure s (headerOfWord H).frameLength = true := by
  unfold headerStage shortOfInput at h
  simp only at h
  repeat' split at h
  all_goals simp at h
  subst h
  simp_all

/-- What the header stage's refill outcome says (41_frame_header.md R351, R359): end of file was not seen, and fewer than
4 bytes or fewer than the frame's length are left. -/
theorem headerStage_exhausted {s : State} (h : headerStage s = .bufferExhausted) :
    s.eof = false ∧ (ensure s 4 = false ∨
      (ensure s (headerOfWord (headerWordAt s)).frameLength = false ∧
        headerValid (headerOfWord (headerWordAt s)) = true ∧ freeFormat (headerOfWord (headerWordAt s)) = false)) := by
  unfold headerStage shortOfInput at h
  simp only at h
  repeat' split at h
  all_goals simp at h
  all_goals simp_all

/-- What the sync-skip outcome says (41_frame_header.md R352, R353). -/
theorem headerStage_skip {s : State} (h : headerStage s = .syncSkip) : ensure s 4 = true := by
  unfold headerStage shortOfInput at h
  simp only at h
  repeat' split at h
  all_goals simp at h
  all_goals simp_all

/-- What an iteration can do (47_session_commands.md R672). -/
theorem iteration_cases (s : State) :
    (headerStage s = .bufferExhausted ∧ iteration s = refillRequest s) ∨
    ((headerStage s = .endOfStream ∨ ∃ c, headerStage s = .fatal c) ∧ iteration s = endOfStream s) ∨
    (headerStage s = .syncSkip ∧ iteration s = syncSkip s) ∨
    (∃ H c, headerStage s = .frame H ∧
      decodeFrame (headerOfWord H) (frameBytes s (headerOfWord H)) s.res = .error c ∧
      iteration s = dropFrame c (headerOfWord H).frameLength
        (s.res ++ mainDataOf (headerOfWord H) (frameBytes s (headerOfWord H))) s) ∨
    (∃ H f, headerStage s = .frame H ∧
      decodeFrame (headerOfWord H) (frameBytes s (headerOfWord H)) s.res = .ok f ∧
      iteration s = deliver H f (s.res ++ mainDataOf (headerOfWord H) (frameBytes s (headerOfWord H))) s) := by
  unfold iteration
  cases h : headerStage s with
  | bufferExhausted => exact .inl ⟨rfl, rfl⟩
  | endOfStream => exact .inr (.inl ⟨.inl rfl, rfl⟩)
  | syncSkip => exact .inr (.inr (.inl ⟨rfl, rfl⟩))
  | fatal c => exact .inr (.inl ⟨.inr ⟨c, rfl⟩, rfl⟩)
  | frame H =>
    cases hd : decodeFrame (headerOfWord H) (frameBytes s (headerOfWord H)) s.res with
    | error c => exact .inr (.inr (.inr (.inl ⟨H, c, rfl, hd, by simp [processFrame, hd]⟩)))
    | ok f => exact .inr (.inr (.inr (.inr ⟨H, f, rfl, hd, by simp [processFrame, hd]⟩)))

/-- An engine step is an iteration or no step (10_state.md R51). -/
theorem engineStep_cases (s : State) :
    (s.engine = .busy ∧ s.pending = .pulling ∧ engineStep s = iteration (tick s)) ∨
      (¬ (s.engine = .busy ∧ s.pending = .pulling) ∧ engineStep s = s) := by
  unfold engineStep
  by_cases h : s.engine = .busy ∧ s.pending = .pulling
  · exact .inl ⟨h.1, h.2, if_pos h⟩
  · exact .inr ⟨h, if_neg h⟩

/-- Two states that hold the same block: they differ at most in the model's own fields. -/
def SameBlock (s b : State) : Prop :=
  b = { s with inputs := b.inputs, busData := b.busData, busError := b.busError, epoch := b.epoch }

/-- What a step does that is neither a command nor a reset: nothing, an engine step, an IN_DATA write, an illegal word, or
a write of CTRL or DBG_SEL. -/
def PlainMove (b t : State) : Prop :=
  t = b ∨ t = engineStep b ∨ (∃ v, t = writeInData v b) ∨ t = raiseHostError .illegalCmd b ∨
    (∃ v, t = { b with ctrl := v &&& ctrlMask }) ∨ (∃ v, t = { b with dbgSel := v &&& dbgSelMask })

/-- Everything a step can do, on the same block with the model's own fields moved on. -/
theorem step_moves {s t : State} (h : step s = .next t) :
    ∃ b, SameBlock s b ∧
      ((nextCommand s = none ∧ nextIsReset s = false ∧ PlainMove b t) ∨
        (nextIsReset s = false ∧ ∃ i, nextCommand s = some i ∧ exec i b = .next t) ∨
        (nextCommand s = none ∧ nextIsReset s = true ∧ t = resetBlock b)) := by
  unfold step nextStep at h
  unfold nextCommand nextIsReset
  cases hi : s.inputs with
  | nil =>
    simp only [hi, Host.Outcome.next.injEq] at h
    exact ⟨s, rfl, .inl ⟨rfl, rfl, .inr (.inl h.symm)⟩⟩
  | cons e es =>
    simp only [hi] at h
    cases e with
    | engine =>
      simp only [runEvent, Host.Outcome.next.injEq] at h
      exact ⟨{ s with inputs := es }, rfl, .inl ⟨rfl, rfl, .inr (.inl h.symm)⟩⟩
    | reset =>
      simp only [runEvent, Host.Outcome.next.injEq] at h
      exact ⟨tick { s with inputs := es }, rfl, .inr (.inr ⟨rfl, rfl, h.symm⟩)⟩
    | read off len =>
      simp only [runEvent, hostRead] at h
      refine ⟨t, ?_, .inl ⟨rfl, rfl, .inl rfl⟩⟩
      split at h
      all_goals first
        | (simp only [Host.Outcome.next.injEq] at h; subst h; rfl)
        | (simp at h)
    | write off len v =>
      simp only [runEvent] at h
      have plain : (targetOf off len ≠ .reg .cmd) → nextCommand s = none := by
        intro hn
        unfold nextCommand
        rw [hi]
        refine if_neg fun hc => hn ?_
        rw [hc.1, hc.2, targetOf_cmd]
      unfold nextCommand at plain
      rw [hi] at plain
      cases ht : targetOf off len with
      | reg r =>
        obtain ⟨rfl, rfl⟩ := targetOf_reg ht
        rw [hostWrite_reg v _ ht] at h
        refine ⟨respond false 0 (tick { s with inputs := es }), rfl, ?_⟩
        by_cases h1 : r = .cmd
        · subst h1
          have hw : writeCmd v (respond false 0 (tick { s with inputs := es })) = .next t := h
          unfold writeCmd at hw
          cases hd : decode v with
          | error e =>
            simp only [hd, Host.Outcome.next.injEq] at hw
            exact .inl ⟨by simp [Reg.offset, hd], rfl, .inr (.inr (.inr (.inl hw.symm)))⟩
          | ok i =>
            simp only [hd] at hw
            exact .inr (.inl ⟨rfl, i, by simp [Reg.offset, hd], hw⟩)
        · have hp := plain (by rw [ht]; simpa using h1)
          by_cases h2 : r = .inData
          · subst h2
            simp only [writeReg, Host.Outcome.next.injEq] at h
            exact .inl ⟨hp, rfl, .inr (.inr (.inl ⟨v, h.symm⟩))⟩
          · refine .inl ⟨hp, rfl, ?_⟩
            by_cases h3 : r = .ctrl
            · subst h3
              simp only [writeReg, Host.Outcome.next.injEq] at h
              exact .inr (.inr (.inr (.inr (.inl ⟨v, h.symm⟩))))
            · by_cases h4 : r = .dbgSel
              · subst h4
                simp only [writeReg, Host.Outcome.next.injEq] at h
                exact .inr (.inr (.inr (.inr (.inr ⟨v, h.symm⟩))))
              · rw [writeReg_plain v _ h1 h2, if_neg h3, if_neg h4] at h
                simp only [Host.Outcome.next.injEq] at h
                exact .inl h.symm
      | outside =>
        unfold hostWrite at h
        rw [ht] at h
        simp at h
      | _ =>
        unfold hostWrite at h
        rw [ht] at h
        simp only [Host.Outcome.next.injEq] at h
        exact ⟨t, by rw [← h]; rfl, .inl ⟨plain (by rw [ht]; simp), rfl, .inl rfl⟩⟩

/-- An iteration leaves the host's settings, the error code, the capacity and the model's own fields. -/
theorem iteration_keeps (s : State) :
    (iteration s).ctrl = s.ctrl ∧ (iteration s).dbgSel = s.dbgSel ∧ (iteration s).err = s.err ∧
      (iteration s).eof = s.eof ∧ (iteration s).ibufCap = s.ibufCap ∧ (iteration s).inputs = s.inputs ∧
      (iteration s).busData = s.busData ∧ (iteration s).busError = s.busError ∧ (iteration s).epoch = s.epoch := by
  rcases iteration_cases s with ⟨-, e⟩ | ⟨-, e⟩ | ⟨-, e⟩ | ⟨H, c, -, -, e⟩ | ⟨H, f, -, -, e⟩ <;> rw [e] <;> simp

/-- The header stage reads nothing that `tick` writes. -/
@[simp] theorem headerStage_tick (s : State) : headerStage (tick s) = headerStage s := rfl

theorem engineStep_decoding {s : State} (h : decoding s) : engineStep s = iteration (tick s) := if_pos h

theorem engineStep_waiting {s : State} (h : ¬ decoding s) : engineStep s = s := if_neg h

/-- A run's first step. -/
theorem run_next {s t : State} (n : Nat) (h : step s = .next t) :
    Host.Core.run Sys2Proof.core (n + 1) s = Host.Core.run Sys2Proof.core n t := by
  have key : ∀ (M : Host.Core) (s t : M.State), M.step s = .next t → M.run (n + 1) s = M.run n t := by
    intro M s t h
    simp [Host.Core.run, h]
  exact key Sys2Proof.core s t h

end Sys2Proof.Machine
end

