-- ==== Sys2Proof/Tests/Slice0.lean ====
section
/-! SUPPORT. The model's own tests. Every expected value is a vector of spec/95_test_vectors.md or of the rule it names,
written out by hand from there; no value was taken from the model. -/

namespace Sys2Proof.Tests

open Sys2Proof Sys2Proof.Machine

-- One theorem after another: all of them at once need more threads than the memory limit of the check allows.
set_option Elab.async false

/-! ## Helpers -/

/-- The step answers a next state with a property. -/
def nextIs (r : Result) (p : State → Bool) : Bool :=
  match r with
  | .next t => p t
  | _       => false

/-- A buffer that holds these bytes from address 0 on. -/
def memOf (l : List Byte) : Mem := (l.zipIdx.map (fun c => (c.2, c.1))).filter (fun c => c.2 ≠ 0)

/-- A PULL decoding, with these bytes at the front of `n` bytes of input. -/
def busyWith (l : List Byte) (n : Nat) : State :=
  { State.reset with engine := .busy, pending := .pulling, session := .streaming, ibuf := memOf l, avail := n }

/-- NEED_DATA for an OPEN (STATUS 0x2002). -/
def openState : State := { State.reset with engine := .needData, pending := .opening, refillMax := 4096 }

/-- NEED_DATA for a PULL (STATUS 0x3006) with `n` bytes left over and `k` staged. -/
def pullState (n k : Nat) : State :=
  { State.reset with
    engine := .needData, pending := .pulling, session := .streaming, avail := n, refillMax := 4096 - n,
    refillCount := k }

/-- After EndOfStream at the end of the file (STATUS 0xE8). -/
def endState : State := { State.reset with session := .exhausted, eos := true, eof := true, done := true }

/-- After a PULL that delivered two channels of PCM (STATUS 0x94), with entries 0, 1 and 2303 given. -/
def pcmState : State :=
  { State.reset with
    session := .streaming, pcmValid := true, done := true, pcmLength := 1152, pcmChannels := 2
    pcmMem := tabulate 2304 (fun k => if k = 0 then 0x0001#16 else if k = 1 then 0xFFFF#16
      else if k = 2303 then 0x7FFF#16 else 0#16) }

/-- The bytes of a frame: a header, side information, main data. Zeros after them are implied. -/
def frameOf (header si main : List Byte) : List Byte := header ++ si ++ main

/-- The side information of vector SI-1. -/
def siOne : List Byte := [0, 0, 0, 0x20, 0x03, 0xA4, 0, 0x80, 0, 0x08, 0, 0, 0, 0, 0, 0, 0]

/-- Frame `S` of spec/95, decoding. -/
def busyS : State := busyWith (frameOf [0xFF, 0xFB, 0x90, 0xC4] siOne [0x5D]) 417

/-- Frame `Z` of spec/95, decoding. -/
def busyZ : State := busyWith [0xFF, 0xFB, 0x90, 0xC4] 417

/-- A silent frame of two channels (mode 0), decoding. -/
def busyTwo : State := busyWith [0xFF, 0xFB, 0x90, 0x04] 417

/-- The one-frame file of a drop vector, decoding: its side information as given. -/
def busyDrop (si : List Byte) : State := busyWith (frameOf [0xFF, 0xFB, 0x90, 0xC4] si []) 417

/-- The cause a state's frame is dropped for, if it is. -/
def dropCause (s : State) : Option Cause :=
  match headerStage s with
  | .frame H =>
    match decodeFrame (headerOfWord H) (frameBytes s (headerOfWord H)) s.res with
    | .error c => some c
    | .ok _    => none
  | _ => none

/-- The state's candidate is a frame that decodes, with this header word. -/
def decodesWith (H : Word) (s : State) : Bool :=
  decide (headerStage s = .frame H) &&
    (match decodeFrame (headerOfWord H) (frameBytes s (headerOfWord H)) s.res with
      | .ok _    => true
      | .error _ => false)

theorem frame_of_decodesWith {H : Word} {s : State} (h : decodesWith H s = true) :
    ∃ f, headerStage s = .frame H ∧ decodeFrame (headerOfWord H) (frameBytes s (headerOfWord H)) s.res = .ok f := by
  unfold decodesWith at h
  simp only [Bool.and_eq_true, decide_eq_true_eq] at h
  cases hd : decodeFrame (headerOfWord H) (frameBytes s (headerOfWord H)) s.res with
  | ok f => exact ⟨f, h.1, rfl⟩
  | error c => simp [hd] at h

theorem drop_of_dropCause {H : Word} {s : State} {c : Cause} (h : headerStage s = .frame H)
    (hc : dropCause s = some c) :
    decodeFrame (headerOfWord H) (frameBytes s (headerOfWord H)) s.res = .error c := by
  unfold dropCause at hc
  rw [h] at hc
  simp only at hc
  cases hd : decodeFrame (headerOfWord H) (frameBytes s (headerOfWord H)) s.res with
  | ok f => simp [hd] at hc
  | error e => simp only [hd, Option.some.injEq] at hc; rw [hc]

/-! ## Well-formedness and decoding of command words (spec/95 CW-1 to CW-14) -/

theorem test_wellFormed_opcode : CommandFields.wellFormed ⟨0x07#8, 0#1, 0#23⟩ = false := by decide
theorem test_wellFormed_mbz : CommandFields.wellFormed ⟨0x05#8, 0#1, 1#23⟩ = false := by decide
theorem test_wellFormed_flag : CommandFields.wellFormed ⟨0x03#8, 1#1, 0#23⟩ = false := by decide
theorem test_wellFormed_good : CommandFields.wellFormed ⟨0x05#8, 1#1, 0#23⟩ = true := by decide

theorem test_decode_legal :
    decode 0x00000000#32 = .ok .nop ∧ decode 0x00000001#32 = .ok .reset ∧ decode 0x00000002#32 = .ok .openFile ∧
    decode 0x00000003#32 = .ok .pull ∧ decode 0x00000004#32 = .ok .close ∧ decode 0x00000005#32 = .ok .refillDone ∧
    decode 0x00000105#32 = .ok .refillDoneErr ∧ decode 0x00000006#32 = .ok .irqAck := by decide

theorem test_decode_illegal :
    decode 0x00000007#32 = .error .reservedOpcode ∧ decode 0x000000FF#32 = .error .reservedOpcode ∧
    decode 0x00000103#32 = .error .strayFlag ∧ decode 0x00000100#32 = .error .strayFlag ∧
    decode 0x00000205#32 = .error .nonzeroMbz ∧ decode 0x80000003#32 = .error .nonzeroMbz := by decide

/-! ## Commands (AC-1 to AC-18) -/

theorem test_illegal_word :
    nextIs (hostWrite 0x008 4 0x00000007#32 openState) (fun t => statusWord t = 0x00002102#32) = true := by
  decide +kernel

theorem test_nop : nextIs (step (State.reset.withFetchWord 32 0x0)) (fun t => statusWord t = 0x80#32) = true := by
  decide +kernel

theorem test_nop_busy : nextIs (exec .nop openState) (fun t => statusWord t = 0x2202#32) = true := by decide +kernel

theorem test_reset :
    nextIs (exec .reset { pullState 10 2 with ctrl := 3 })
      (fun t => statusWord t = 0 && t.ctrl = 0 && t.avail = 0 && t.refillMax = 0) = true := by decide +kernel

theorem test_open :
    nextIs (step (State.reset.withFetchWord 32 0x2)) (fun t => statusWord t = 0x2002#32 && t.refillMax = 4096) = true := by
  decide +kernel

/-- 47_session_commands.md R660: SESSION is kept until the OPEN completes (assumption log 21 on vector AC-15). -/
theorem test_open_again :
    nextIs (exec .openFile { endState with frames := 7, header := 5 })
      (fun t => statusWord t = 0x200A#32 && t.frames = 0 && t.header = 0) = true := by decide +kernel

theorem test_pull_no_session :
    nextIs (step (State.reset.withFetchWord 32 0x3)) (fun t => statusWord t = 0x300#32) = true := by decide +kernel

theorem test_pull_exhausted :
    nextIs (exec .pull { endState with frames := 7 }) (fun t => statusWord t = 0xE8#32 && t.frames = 7) = true := by
  decide +kernel

theorem test_close :
    nextIs (exec .close { endState with frames := 7, header := 5 })
      (fun t => statusWord t = 0x80#32 && t.frames = 7 && t.header = 0) = true := by decide +kernel

theorem test_close_busy : nextIs (exec .close openState) (fun t => statusWord t = 0x2202#32) = true := by
  decide +kernel

theorem test_refill_done_empty : nextIs (exec .refillDone openState) (fun t => statusWord t = 0xC4#32) = true := by
  decide +kernel

theorem test_refill_done_pull :
    nextIs (exec .refillDone (pullState 100 317))
      (fun t => t.avail = 417 && statusWord t = 0x3005#32 && t.refillMax = 0) = true := by decide +kernel

theorem test_refill_done_err_open :
    nextIs (step (openState.withFetchWord 32 0x105)) (fun t => statusWord t = 0x480#32) = true := by decide +kernel

theorem test_refill_done_err_pull :
    nextIs (exec .refillDoneErr (pullState 10 50)) (fun t => t.avail = 10 && t.eof && t.refillCount = 0) = true := by
  decide +kernel

theorem test_irq_ack : nextIs (exec .irqAck pcmState) (fun t => statusWord t = 0x14#32) = true := by decide +kernel

theorem test_irq_ack_need_data :
    nextIs (exec .irqAck { openState with ctrl := 2, err := .busy })
      (fun t => statusWord t = 0x2002#32 && irqLine t) = true := by decide +kernel

theorem test_irq :
    irqLine { pcmState with ctrl := 2 } = true ∧ irqLine { pcmState with ctrl := 1 } = false ∧
    irqLine { busyZ with ctrl := 2 } = false ∧ irqLine { State.reset with ctrl := 2, err := .noSession } = false := by
  decide +kernel

/-! ## The window (MW-1 to MW-9, LY-3 to LY-6) -/

theorem test_read_id :
    nextIs (hostRead 0x000 4 State.reset) (fun t => t.busData = 0x4D503301#32 && !t.busError) = true := by
  decide +kernel

theorem test_write_ctrl :
    nextIs (hostWrite 0x004 4 0xFFFFFFFF#32 State.reset) (fun t => t.ctrl = 0x00000003#32) = true := by decide +kernel

theorem test_write_dbgSel :
    nextIs (hostWrite 0x048 4 0xFFFFF005#32 State.reset) (fun t => t.dbgSel = 0x00000005#32) = true := by
  decide +kernel

theorem test_write_status_ignored :
    nextIs (hostWrite 0x00C 4 0xFFFFFFFF#32 openState) (fun t => statusWord t = 0x2002#32) = true := by decide +kernel

theorem test_read_unmapped :
    nextIs (hostRead 0x050 4 { State.reset with busData := 1 }) (fun t => t.busData = 0 && !t.busError) = true ∧
    nextIs (hostRead 0x3200 4 { State.reset with busData := 1 }) (fun t => t.busData = 0 && !t.busError) = true := by
  decide +kernel

theorem test_read_bus_error :
    nextIs (hostRead 0x00E 2 { State.reset with busData := 1 }) (fun t => t.busData = 0 && t.busError) = true ∧
    nextIs (hostRead 0x2001 1 { pcmState with busData := 1 }) (fun t => t.busData = 0 && t.busError) = true := by
  decide +kernel

theorem test_read_pcm_word :
    nextIs (hostRead 0x2000 4 pcmState) (fun t => t.busData = 0xFFFF0001#32) = true := by decide +kernel

theorem test_read_pcm_half :
    nextIs (hostRead 0x2002 2 pcmState) (fun t => t.busData = 0x0000FFFF#32) = true ∧
    nextIs (hostRead 0x31FE 2 pcmState) (fun t => t.busData = 0x00007FFF#32) = true := by decide +kernel

theorem test_write_pcm_ignored :
    nextIs (hostWrite 0x2000 2 5 pcmState) (fun t => pcmEntry t 0 = 1 && !t.busError) = true := by decide +kernel

/-! ## Input bytes and refills (IN-1 to IN-4, RF-1 to RF-6) -/

theorem test_inData_idle :
    nextIs (hostWrite 0x018 4 0x41#32 State.reset) (fun t => statusWord t = 0x500#32 && t.refillCount = 0) = true := by
  decide +kernel

theorem test_inData_low_byte :
    nextIs (hostWrite 0x018 4 0xFFFFFF41#32 openState)
      (fun t => t.ibuf = [(0, 0x41#8)] && t.refillCount = 1 && statusWord t = 0x2002#32) = true := by decide +kernel

theorem test_inData_overflow :
    nextIs (hostWrite 0x018 4 0 { openState with refillCount := 4096 })
      (fun t => statusWord t = 0x2602#32 && t.refillCount = 4096) = true := by decide +kernel

theorem test_refill_short_frame :
    nextIs (step (busyWith [0xFF, 0xFB, 0x90, 0xC4] 100))
      (fun t => t.avail = 100 && t.pos = 0 && t.refillMax = 3996 && statusWord t = 0x3006#32) = true := by
  decide +kernel

theorem test_refill_empty :
    nextIs (step { busyWith [] 834 with pos := 834 }) (fun t => t.avail = 0 && t.pos = 0 && t.refillMax = 4096) = true := by
  decide +kernel

theorem test_refill_moves_tail :
    nextIs (step { busyWith [] 836 with pos := 834, ibuf := [(834, 0xFF#8), (835, 0xFB#8)] })
      (fun t => t.ibuf.read 0 = 0xFF#8 && t.ibuf.read 1 = 0xFB#8 && t.avail = 2 && t.pos = 0 && t.refillMax = 4094) =
      true := by decide +kernel

theorem test_end_of_stream_fragment :
    nextIs (step { busyWith [0xFF, 0xFB] 2 with eof := true })
      (fun t => statusWord t = 0xE8#32 && t.resyncs = 0 && t.avail - t.pos = 2) = true := by decide +kernel

theorem test_end_of_stream_truncated :
    nextIs (step { busyWith [0xFF, 0xFB, 0x90, 0xC4] 416 with eof := true })
      (fun t => statusWord t = 0xE8#32 && t.frames = 0) = true := by decide +kernel

/-! ## Headers (HD-1 to HD-18) -/

theorem test_header_lengths :
    [0xFFFB90C4#32, 0xFFFB92C4#32, 0xFFFB94C4#32, 0xFFFB98C4#32, 0xFFFBE004#32, 0xFFFBEA04#32, 0xFFFB14C4#32].map
      (fun H => (headerOfWord H).frameLength) = [417, 418, 384, 576, 1044, 1441, 96] := by decide +kernel

theorem test_header_modes :
    (headerOfWord 0xFFFB90C4#32).nch = 1 ∧ (headerOfWord 0xFFFB9064#32).nch = 2 ∧
    (headerOfWord 0xFFFB9064#32).msStereo = true ∧ (headerOfWord 0xFFFB9064#32).intensityStereo = false ∧
    (headerOfWord 0xFFFA90C4#32).mainDataOffset = 23 ∧ (headerOfWord 0xFFFB90C4#32).mainDataOffset = 21 := by
  decide +kernel

/-- 30_encoding.md R211, R214, R215: private_bit, copyright, original and emphasis are ignored, and mode_extension in
every mode but joint stereo. -/
theorem test_ignored_header_fields :
    wordOfHeader (headerOfWord 0xFFFB913F#32).heeded = 0xFFFB9000#32 ∧
    wordOfHeader (headerOfWord 0xFFFB917F#32).heeded = 0xFFFB9070#32 := by decide +kernel

theorem test_sync_skips :
    headerStage (busyWith [0x00, 0xFF, 0xFB, 0x90] 417) = .syncSkip ∧
    headerStage (busyWith [0xFF, 0xFF, 0xFB, 0x90] 417) = .syncSkip ∧
    headerStage (busyWith [0xFF, 0xF3, 0x90, 0xC4] 417) = .syncSkip ∧
    headerStage (busyWith [0xFF, 0xFD, 0x90, 0xC4] 417) = .syncSkip ∧
    headerStage (busyWith [0xFF, 0xFB, 0xF0, 0xC4] 417) = .syncSkip ∧
    headerStage (busyWith [0xFF, 0xFB, 0x9C, 0xC4] 417) = .syncSkip := by decide +kernel

theorem test_sync_skip_step :
    nextIs (step (busyWith [0x00, 0xFF, 0xFB, 0x90] 417))
      (fun t => t.pos = 1 && t.resyncs = 1 && t.diagCause.code = 1 && statusWord t = 0x3005#32) = true := by
  decide +kernel

theorem test_fatal_free_format :
    nextIs (step (busyWith [0xFF, 0xFB, 0x00, 0xC4] 417))
      (fun t => statusWord t = 0xA8#32 && t.diagCause = .none && t.pos = 0) = true := by decide +kernel

theorem test_fatal_format_change :
    nextIs (step { busyWith [0xFF, 0xFB, 0x94, 0xC4] 417 with lock := some ⟨44100, 1⟩ })
      (fun t => statusWord t = 0xA8#32 && t.pos = 0 && t.dropped = 0) = true ∧
    headerStage { busyWith [0xFF, 0xFB, 0x90, 0x64] 417 with lock := some ⟨44100, 1⟩ } = .fatal .formatChange := by
  decide +kernel

theorem test_bitrate_change_allowed :
    headerStage { busyWith [0xFF, 0xFB, 0xA0, 0xC4] 522 with lock := some ⟨44100, 1⟩ } = .frame 0xFFFBA0C4#32 := by
  decide +kernel

/-! ## Side information and drops (SI-1, DR-1 to DR-10) -/

/-- The side information that vector SI-1 lists. -/
def sideOne : SideInfo := parseSideInfo 1 (Cursor.at (bytesBits siOne) 0)

theorem test_side_info :
    sideOne.mainDataBegin = 0 ∧ sideOne.scfsi0 = 0 ∧
    sideOne.g0c0 = { (default : GranuleInfo) with
      part23Length := 8, bigValues := 1, globalGain := 210, tableSelect0 := 1, count1Table := true } ∧
    sideOne.g1c0 = default := by decide +kernel

theorem test_drop_causes :
    dropCause (busyDrop [0x00, 0x80]) = some .reservoirUnderflow ∧
    dropCause (busyDrop [0, 0, 0, 0, 0, 0, 0x10]) = some .badBlockType ∧
    dropCause (busyDrop [0, 0, 0, 0x02, 0x42]) = some .bigValuesRange ∧
    dropCause (busyDrop [0, 0, 0x3F, 0xFC]) = some .part23Overrun ∧
    dropCause (busyDrop [0, 0, 0, 0x28, 0, 0x01, 0xE0]) = some .scalefacOverrun := by decide +kernel

theorem test_drop_causes_huffman :
    dropCause (busyDrop [0, 0, 0, 0x20, 0x02, 0, 0x02]) = some .badTable ∧
    dropCause (busyDrop [0, 0, 0, 0x08, 0x02, 0, 0, 0x80]) = some .huffmanOverrun := by decide +kernel

theorem test_drop_order :
    dropCause (busyDrop [0, 0, 0, 0x02, 0x42, 0, 0, 0, 0, 0, 0, 0, 0, 0x02]) = some .bigValuesRange ∧
    dropCause (busyDrop [0x00, 0x80, 0, 0x02, 0x42]) = some .reservoirUnderflow ∧
    dropCause (busyDrop [0, 0, 0x3F, 0xFE, 0x42]) = some .bigValuesRange := by decide +kernel

theorem test_drop_step :
    nextIs (step (busyDrop [0x00, 0x80]))
      (fun t => t.dropped = 1 && t.diagCause.code = 2 && t.pos = 417 && t.res.length = 396 && t.header = 0 &&
        t.lock = none) = true := by decide +kernel

/-- The non-drop corner after DR-10: tables 4 and 14 in regions that hold no pair. -/
theorem test_missing_tables_unused :
    nextIs (step (busyDrop [0, 0, 0, 0, 0, 0, 0x02, 0x38, 0x80])) (fun t => t.frames = 1 && t.dropped = 0) = true := by
  decide +kernel

theorem test_main_data_start : mainDataStart 300 { (default : SideInfo) with mainDataBegin := 120 } = 1440 := by decide

theorem test_trim : (trimRes (List.replicate 792 0#8)).length = 511 := by decide +kernel

/-! ## Huffman decoding (HF-1 to HF-13, HF-P3) -/

/-- The pair and the bits used, in table 1. -/
def pairOne (bits : List Bool) : Option ((Int × Int) × Nat) :=
  match decodePair 1 ⟨0, bits⟩ with
  | .ok r    => some (r.1, r.2.pos)
  | .error _ => none

theorem test_pairs :
    pairOne [true] = some ((0, 0), 1) ∧ pairOne [false, true, true] = some ((-1, 0), 3) ∧
    pairOne [false, true, false] = some ((1, 0), 3) ∧ pairOne [false, false, true, true] = some ((0, -1), 4) ∧
    pairOne [false, false, false, false, true] = some ((1, -1), 5) ∧
    decodePair 0 ⟨0, [true]⟩ = .ok ((0, 0), ⟨0, [true]⟩) := by decide +kernel

theorem test_quads :
    decodeQuad false ⟨0, [false, true, false, true, false]⟩ = ([0, 0, 0, 1], ⟨5, []⟩) ∧
    decodeQuad false ⟨0, [true]⟩ = ([0, 0, 0, 0], ⟨1, []⟩) ∧
    decodeQuad true ⟨0, [true, true, true, false, true]⟩ = ([0, 0, 0, -1], ⟨5, []⟩) ∧
    decodeQuad true ⟨0, [false, false, false, false, false, true, false, false]⟩ = ([1, -1, 1, 1], ⟨8, []⟩) := by
  decide +kernel

/-- Part 3 of one pair in table 1 with count1 table B, ending at bit `n`. -/
def partOne (n : Nat) (bits : List Bool) : Except Cause Lines :=
  decodeSpectrum 0 { (default : GranuleInfo) with bigValues := 1, tableSelect0 := 1, count1Table := true } n ⟨0, bits⟩

/-- The nonzero lines of a part, or none where it failed. -/
def nonzeroLines (r : Except Cause Lines) : Option (List (Int × Nat)) :=
  match r with
  | .ok l    => some (l.toList.zipIdx.filter (fun c => c.1 ≠ 0))
  | .error _ => none

theorem test_part_three :
    nonzeroLines (partOne 8 [false, true, false, true, true, true, false, true]) = some [(1, 0), (-1, 5)] := by
  decide +kernel

theorem test_part_three_overrun : nonzeroLines (partOne 2 [false, true, true]) = none := by decide +kernel

theorem test_part_three_discards : nonzeroLines (partOne 2 [true, false, true, true, true]) = some [] := by
  decide +kernel

/-! ## Deliveries (P1, P3, P4) -/

theorem test_frame_S :
    nextIs (step busyS) (fun t => statusWord t = 0x94#32 && t.frames = 1 && t.header = 0xFFFB90C4#32 &&
      dbgData { t with dbgSel := 0 } = 1 && dbgData { t with dbgSel := 5 } = 0xFFFFFFFF#32 &&
      dbgData { t with dbgSel := 1 } = 0 && dbgData { t with dbgSel := 0x400 } = 0 &&
      dbgData { t with dbgSel := 0x800 } = 0 && dbgData { t with dbgSel := 576 } = 0) = true := by decide +kernel

theorem test_frame_Z :
    nextIs (step busyZ) (fun t => statusWord t = 0x94#32 && t.sampleRate = 44100 && t.bitrate = 128 &&
      t.srcChannels = 1 && t.pcmChannels = 1 && t.pcmLength = 1152 && pcmEntry t 0 = 0 && pcmEntry t 1151 = 0 &&
      t.pos = 417 && t.lock = some ⟨44100, 1⟩ && silentSyn t.syn0 && t.res.length = 396) = true := by decide +kernel

theorem test_frame_Z_forced_stereo :
    nextIs (step { busyZ with ctrl := 1 })
      (fun t => t.pcmChannels = 2 && t.srcChannels = 1 && pcmEntry t 2303 = 0) = true := by decide +kernel

/-- 46_pcm_output.md R601, row by row. -/
theorem test_pcm_vectors :
    [0, 4095, 4096, 8191, 12288, -4096, -4097, -12289, 268427264, 268431359, 268431360, 268435456, -268435456,
      -268439553, 2147483647, -2147483648].map (fun v : Int => (pcmOfSample (BitVec.ofInt 32 v)).toInt) =
    [0, 0, 1, 1, 2, 0, -1, -2, 32767, 32767, 32767, 32767, -32768, -32768, 32767, -32768] := by decide +kernel

/-- A pair of outputs with the first sample of each given, in 2^13 parts of one PCM step. -/
def outs (a b : Int) : FxOut SynChan × FxOut SynChan :=
  (⟨tabulate 1152 (fun n => if n = 0 then BitVec.ofInt 32 a else 0), zeroSyn⟩,
   ⟨tabulate 1152 (fun n => if n = 0 then BitVec.ofInt 32 b else 0), zeroSyn⟩)

theorem test_layout :
    (interleave 1 1 (outs (7 * 8192) 0) (Vector.replicate 2304 9)).toList.take 2 = [7, 0] ∧
    (interleave 1 2 (outs (5 * 8192) 0) (Vector.replicate 2304 9)).toList.take 3 = [5, 5, 0] ∧
    (interleave 2 2 (outs 8192 (-8192)) (Vector.replicate 2304 9)).toList.take 3 = [1, 0xFFFF, 0] ∧
    (interleave 1 1 (outs 0 0) (Vector.replicate 2304 9)).toList.getD 1152 0 = 9 := by decide +kernel

/-! ## Witnesses: states and operands that meet the hypotheses of the statements -/

theorem witness_IllegalWordsSetErrOnly :
    illegalWord 0x00000007#32 ∧ illegalWord 0x000000FF#32 ∧ illegalWord 0x00000100#32 ∧ illegalWord 0x80000003#32 ∧
    ¬ illegalWord 0x00000105#32 ∧ ¬ illegalWord 0x00000006#32 := by unfold illegalWord; decide

/-- The largest value of every field, in both layouts. -/
def fullGranule (w : Bool) : GranuleInfo where
  part23Length := 4095
  bigValues := 511
  globalGain := 255
  scalefacCompress := 15
  windowSwitching := w
  blockType := if w then 3 else 0
  mixedBlock := w
  tableSelect0 := 31
  tableSelect1 := 31
  tableSelect2 := if w then 0 else 31
  subblockGain0 := if w then 7 else 0
  subblockGain1 := if w then 7 else 0
  subblockGain2 := if w then 7 else 0
  region0Count := if w then 0 else 15
  region1Count := if w then 0 else 7
  preflag := true
  scalefacScale := true
  count1Table := true

theorem witness_SideInfoRoundTrip :
    sideInfoFits 1 ⟨511, 15, 0, fullGranule true, default, fullGranule false, default⟩ = true ∧
    sideInfoFits 2 ⟨511, 15, 15, fullGranule true, fullGranule false, fullGranule false, fullGranule true⟩ = true := by
  decide +kernel

theorem witness_HuffmanPairRoundTrip :
    0 < 1 ∧ 1 < 32 ∧ missingTable 1 = false ∧ (⟨[false, false, false], 1, 1⟩ : Code) ∈ codeSet (codeSetNumber 1) ∧
    valueFits (linbits 1) 1 (-1) = true ∧ valueFits (linbits 1) 1 1 = true := by decide +kernel

theorem codeSet_last : ∃ k ∈ codeSet (codeSetNumber 31), k.x = 15 ∧ k.y = 15 := by
  have valid : ∀ l, codeSetValid 16 l = true → ∃ k ∈ l, k.x = 15 ∧ k.y = 15 := by
    intro l h
    simp only [codeSetValid, Bool.and_eq_true, List.all_eq_true, List.any_eq_true, decide_eq_true_eq,
      List.mem_range] at h
    obtain ⟨k, hk, h1, h2⟩ := h.1.2 255 (by decide)
    exact ⟨k, hk, h1, h2⟩
  have e : codeSet (codeSetNumber 31) =
      if codeSetValid 16 (Config.huffTables 24) then Config.huffTables 24 else plainCodes 16 := rfl
  rw [e]
  split
  · rename_i h
    exact valid _ h
  · exact ⟨⟨natBits 8 255, 15, 15⟩, by decide +kernel, rfl, rfl⟩

/-- The escape at its greatest value, in table 31. -/
theorem witness_HuffmanPairRoundTrip_escape :
    ∃ k ∈ codeSet (codeSetNumber 31), missingTable 31 = false ∧ valueFits (linbits 31) k.x 8206 = true ∧
      valueFits (linbits 31) k.y (-8206) = true := by
  obtain ⟨k, hk, hx, hy⟩ := codeSet_last
  refine ⟨k, hk, ?_, ?_, ?_⟩
  · decide
  · rw [hx]; decide +kernel
  · rw [hy]; decide +kernel

theorem witness_HuffmanQuadRoundTrip :
    (-1 : Int).natAbs ≤ 1 ∧ (0 : Int).natAbs ≤ 1 ∧ (1 : Int).natAbs ≤ 1 := by decide

theorem witness_CodeSetsMeetConstraints :
    (0 < 1 ∧ 1 < 32 ∧ missingTable 1 = false) ∧ (0 < 31 ∧ 31 < 32 ∧ missingTable 31 = false) := by decide

theorem witness_StepRunsWrittenCommand :
    ({ State.reset with inputs := [.write 0x008 4 6] }).inputs = .write 0x008 4 6 :: [] ∧ decode 6 = .ok .irqAck ∧
    State.reset.inputs = [] ∧ ({ busyZ with inputs := [.engine] }).inputs = .engine :: [] ∧
    ({ busyZ with inputs := [.reset] }).inputs = .reset :: [] ∧
    ({ busyZ with inputs := [.read 0x3FFC 4] }).inputs = .read 0x3FFC 4 :: [] ∧
    ({ busyZ with inputs := [.write 0x048 4 5] }).inputs = .write 0x048 4 5 :: [] := by decide +kernel

theorem witness_AccessSideEffects :
    (0x3FFF < 0x4000 ∧ ¬ (1 = 4 ∧ (0x3FFF = 0x008 ∨ 0x3FFF = 0x018))) ∧
    (0x004 < 0x4000 ∧ ¬ (4 = 4 ∧ (0x004 = 0x008 ∨ 0x004 = 0x018))) ∧
    (0x008 < 0x4000 ∧ ¬ (2 = 4 ∧ (0x008 = 0x008 ∨ 0x008 = 0x018))) := by decide

theorem witness_BusErrorsChangeNothing :
    (0xFFE < 0x1000 ∧ ¬ (2 = 4 ∧ 0xFFE % 4 = 0)) ∧ (0x000 < 0x1000 ∧ ¬ (1 = 4 ∧ 0x000 % 4 = 0)) ∧
    (0x2000 ≤ 0x2000 ∧ 0x2000 < 0x3200 ∧ (1 = 1 ∨ 4 < 1)) ∧ (0x2000 ≤ 0x31FF ∧ 0x31FF < 0x3200 ∧ (8 = 1 ∨ 4 < 8)) ∧
    (0x3FFF < 0x4000 ∧ (2 = 2 ∧ 0x3FFF % 2 ≠ 0)) ∧ (0x3FFE < 0x4000 ∧ (4 = 4 ∧ 0x3FFE % 4 ≠ 0)) := by decide

theorem witness_UnmappedOffsetsReadZero :
    (4 = 4 ∧ 0x050 % 4 = 0 ∧ 0x050 ≤ 0x050 ∧ 0x050 < 0x2000) ∧ (4 = 4 ∧ 0x1FFC % 4 = 0 ∧ 0x1FFC < 0x2000) ∧
    (4 = 4 ∧ 0x3200 % 4 = 0 ∧ 0x3200 ≤ 0x3200 ∧ 0x3200 < 0x4000) ∧
    (2 = 2 ∧ 0x1000 % 2 = 0 ∧ 0x1000 ≤ 0x1000 ∧ 0x1000 < 0x2000) ∧ (2 = 2 ∧ 0x3FFE % 2 = 0 ∧ 0x3FFE < 0x4000) := by
  decide

theorem witness_PcmWindow :
    2303 < 2304 ∧ pcmState.pcmValid = true ∧ 2303 < pcmState.pcmLength.toNat * pcmState.pcmChannels.toNat ∧
    1151 < 1152 := by decide +kernel

theorem witness_InvalidPcmIsUnspecified :
    (2303 < 2304 ∧ State.reset.pcmValid = false) ∧
    (let s := { pcmState with pcmChannels := 1 }
     1152 < 2304 ∧ s.pcmValid = true ∧ s.pcmLength.toNat * s.pcmChannels.toNat ≤ 1152) ∧
    (busyZ.engine = .busy ∧ busyZ.pending = .pulling) ∧
    ∃ t, hostWrite 0x3FFC 4 0 State.reset = .next t := by
  refine ⟨by decide +kernel, by decide +kernel, by decide +kernel, _, rfl⟩

theorem witness_InDataWrite :
    (State.reset.ibuf.wf = true ∧ State.reset.engine ≠ .needData) ∧
    (let s := { openState with refillCount := 4096 }
     s.ibuf.wf = true ∧ s.engine = .needData ∧ s.refillCount = s.refillMax) ∧
    (let s := { openState with refillCount := 4095 }
     s.ibuf.wf = true ∧ s.engine = .needData ∧ s.refillCount ≠ s.refillMax) := by decide +kernel

theorem witness_CommandsRejected :
    busyZ.engine ≠ .idle ∧ openState.engine ≠ .idle ∧ busyZ.engine ≠ .needData ∧
    (State.reset.engine = .idle ∧ State.reset.session = .uninitialized) := by decide +kernel

theorem witness_NopCompletes : endState.engine = .idle ∧ openState.engine ≠ .idle := by decide +kernel

theorem witness_OpenStartsFill : endState.engine = .idle ∧ busyZ.engine ≠ .idle := by decide +kernel

theorem witness_CloseEndsSession : pcmState.engine = .idle ∧ (pullState 100 317).engine ≠ .idle := by decide +kernel

theorem witness_PullStartsOrEnds :
    busyZ.engine ≠ .idle ∧ (State.reset.engine = .idle ∧ State.reset.session = .uninitialized) ∧
    (endState.engine = .idle ∧ endState.session = .exhausted) ∧
    (pcmState.engine = .idle ∧ pcmState.session = .streaming) := by decide +kernel

theorem witness_RefillDoneCompletesOpen : openState.engine = .needData ∧ openState.pending = .opening := ⟨rfl, rfl⟩

theorem witness_RefillDoneResumesPull :
    (pullState 100 317).engine = .needData ∧ (pullState 100 317).pending = .pulling := ⟨rfl, rfl⟩

theorem witness_CommandFrame :
    (∃ t, exec .close pcmState = .next t) ∧ (∃ t, exec .openFile pcmState = .next t) ∧
    (∃ t, exec .pull pcmState = .next t) ∧ Instr.close ≠ .reset ∧ Instr.pull ≠ .openFile ∧ Instr.pull ≠ .close :=
  ⟨⟨_, rfl⟩, ⟨_, rfl⟩, ⟨_, rfl⟩, by decide⟩

theorem witness_SyncSkipStep :
    let s := busyWith [0xFF, 0xFB, 0x9C, 0xC4] 4
    (s.engine = .busy ∧ s.pending = .pulling) ∧ 4 ≤ s.avail - s.pos ∧ ¬ validHeaderWord (headerWordAt s) := by
  unfold validHeaderWord
  decide +kernel

theorem busy_reader (l : List Byte) : ReaderInv (busyWith l 417) := by
  constructor <;> simp [busyWith, State.reset]

theorem witness_RefillStep :
    let s := { busyZ with avail := 416 }
    decoding s ∧ ReaderInv s ∧ headerStage s = .bufferExhausted := by
  refine ⟨⟨rfl, rfl⟩, ?_, by decide +kernel⟩
  constructor <;> simp [busyZ, busyWith, State.reset]

theorem witness_EndOfStreamStep :
    headerStage { busyZ with avail := 416, eof := true } = .endOfStream ∧
    headerStage (busyWith [0xFF, 0xFB, 0x00, 0xC4] 4) = .fatal .freeFormat ∧
    headerStage { busyZ with lock := some ⟨48000, 1⟩ } = .fatal .formatChange ∧
    (busyZ.engine = .busy ∧ busyZ.pending = .pulling) := by decide +kernel

theorem witness_FrameLengthTable :
    (let h := headerOfWord 0xFFFB14C4#32; headerValid h = true ∧ freeFormat h = false) ∧
    (let h := headerOfWord 0xFFFBEA04#32; headerValid h = true ∧ freeFormat h = false) ∧
    (let h := headerOfWord 0xFFFB10C4#32
     h.padding = 0#1 ∧ 1 ≤ h.bitrateIndex.toNat ∧ h.bitrateIndex.toNat ≤ 14 ∧ h.samplingFrequency = 0#2) ∧
    (let h := headerOfWord 0xFFFBE4C4#32
     h.padding = 0#1 ∧ 1 ≤ h.bitrateIndex.toNat ∧ h.bitrateIndex.toNat ≤ 14 ∧ h.samplingFrequency = 1#2) ∧
    (let h := headerOfWord 0xFFFBE8C4#32
     h.padding = 0#1 ∧ 1 ≤ h.bitrateIndex.toNat ∧ h.bitrateIndex.toNat ≤ 14 ∧ h.samplingFrequency = 2#2) ∧
    (headerOfWord 0xFFFB10C4#32).bitrateIndex.toNat = 1 ∧ (headerOfWord 0xFFFBE8C4#32).bitrateIndex.toNat = 14 ∧
    (headerOfWord 0xFFFB10C4#32).mode = 3#2 ∧ (headerOfWord 0xFFFB1084#32).mode ≠ 3#2 := by
  decide +kernel

theorem witness_FrameDropStep :
    let s := busyDrop [0, 0, 0, 0x02, 0x42]
    let h := headerOfWord 0xFFFB90C4#32
    let frame := (List.range h.frameLength).map fun i => s.ibuf.read (s.pos + i)
    decoding s ∧ headerStage s = .frame 0xFFFB90C4#32 ∧ decodeFrame h frame s.res = .error .bigValuesRange := by
  refine ⟨⟨rfl, rfl⟩, by decide +kernel, ?_⟩
  exact drop_of_dropCause (by decide +kernel) (by decide +kernel)

/-- Frame `S` meets the hypotheses of FrameDeliveryStep, SnapshotShowsFrame, and, with a single channel,
DeliveredPcmLayout. -/
theorem witness_FrameDeliveryStep :
    ∃ f, decoding busyS ∧ headerStage busyS = .frame 0xFFFB90C4#32 ∧
      decodeFrame (headerOfWord 0xFFFB90C4#32) (frameBytes busyS (headerOfWord 0xFFFB90C4#32)) busyS.res = .ok f := by
  obtain ⟨f, h1, h2⟩ := frame_of_decodesWith (H := 0xFFFB90C4#32) (s := busyS) (by decide +kernel)
  exact ⟨f, ⟨rfl, rfl⟩, h1, h2⟩

theorem witness_FrameCheckOrder :
    dropCause (busyDrop [0x00, 0x80]) = some .reservoirUnderflow ∧
    dropCause (busyDrop [0, 0, 0x3F, 0xFC]) = some .part23Overrun ∧
    dropCause (busyDrop [0, 0, 0, 0x28, 0, 0x01, 0xE0]) = some .scalefacOverrun ∧
    dropCause (busyDrop [0, 0, 0, 0x08, 0x02, 0, 0, 0x80]) = some .huffmanOverrun ∧
    ∃ f, decodeFrame (headerOfWord 0xFFFB90C4#32) (frameBytes busyS (headerOfWord 0xFFFB90C4#32)) busyS.res = .ok f := by
  obtain ⟨f, -, -, h⟩ := witness_FrameDeliveryStep
  exact ⟨by decide +kernel, by decide +kernel, by decide +kernel, by decide +kernel, f, h⟩

theorem witness_PartCheckOrder :
    decodePart 0 0 0 noScalefac
      { (default : GranuleInfo) with part23Length := 2, bigValues := 1, tableSelect0 := 1 } [] 0 =
      .error .huffmanOverrun ∧
    decodePart 0 0 0 noScalefac { (default : GranuleInfo) with scalefacCompress := 15 } [] 0 =
      .error .scalefacOverrun ∧
    decodePart 0 0 0 noScalefac { (default : GranuleInfo) with bigValues := 1, tableSelect0 := 4 } [] 0 =
      .error .badTable ∧
    (decodePart 0 0 0 noScalefac { (default : GranuleInfo) with part23Length := 5 } [] 0).isOk = true ∧
    (0 < 1 ∧ 1 < 32 ∧ missingTable 1 = false) := by decide +kernel

theorem witness_OneFramePerPull :
    (busyS.engine = .busy ∧ busyS.pending = .pulling) ∧ (engineStep busyS).engine = .idle ∧
    (engineStep { busyZ with avail := 416, eof := true }).engine = .idle ∧
    (engineStep (busyDrop [0x00, 0x80])).engine ≠ .idle := by decide +kernel

theorem witness_PullTerminates :
    (busyS.engine = .busy ∧ busyS.pending = .pulling) ∧ busyS.pos ≤ busyS.avail ∧ busyS.inputs = [] ∧
    ({ busyS with eof := true }).eof = true := by decide +kernel

/-- The decoding state of frame `S` meets every invariant, and steps. -/
theorem witness_StepKeepsInvariants : Inv busyS ∧ ∃ t, step busyS = .next t := by
  refine ⟨⟨busy_reader _, ?_, ?_, ?_, ?_, ?_⟩, ⟨_, rfl⟩⟩
  · have h : ∀ c ∈ busyS.ibuf, c.1 < 4096 := by decide +kernel
    exact ⟨by decide +kernel, h, read_guard h⟩
  · constructor <;> simp [busyS, busyWith, State.reset]
  · constructor <;> simp [busyS, busyWith, State.reset]
  · constructor <;> simp [busyS, busyWith, State.reset]
  · refine ⟨by decide +kernel, by decide +kernel, by decide +kernel, ?_⟩
    intro gr ch line
    have e : ∀ (α : Type) (n i : Nat) (x : α), (Vector.replicate n x).toList.getD i x = x := by
      intro α n i x
      rw [Vector.toList_replicate, List.getD_eq_getElem?_getD, List.getElem?_replicate]
      split <;> rfl
    have h : snapLine busyS.isSnap gr ch line = 0 := by
      show snapLine zeroSnap gr ch line = 0
      unfold snapLine zeroSnap
      rw [e, e, e]
    rw [h]
    decide

theorem witness_UnconsumedInputKept :
    (busyS.engine = .busy ∧ busyS.pending = .pulling ∧ busyS.pos ≤ busyS.avail) ∧
    (let s := pullState 100 317; s.engine = .needData ∧ s.pending = .pulling ∧ s.pos ≤ s.avail) ∧
    (let s := pullState 100 317
     s.engine = .needData ∧ s.refillCount ≠ s.refillMax ∧ s.ibuf.wf = true ∧ s.pos ≤ s.avail) ∧
    (engineStep (busyDrop [0x00, 0x80])).engine = .busy ∧
    (engineStep (busyWith [0, 0, 0, 0] 4)).engine = .busy ∧
    (engineStep (busyWith [0, 0, 0, 0] 4)).dropped = 0 := by decide +kernel

theorem witness_SynWritesOnly :
    let y : SynChan := ⟨Vector.replicate 32 (Vector.replicate 18 0), Vector.replicate 1024 1⟩
    let s := { pcmState with syn0 := y }.withFetchWord 32 0x4
    (∃ t, step s = .next t ∧ (t.syn0 ≠ s.syn0 ∨ t.syn1 ≠ s.syn1)) ∧ pcmState.engine = .idle ∧
    nextIsReset { busyZ with inputs := [.reset] } = true ∧
      ∃ t, step { busyZ with inputs := [.reset] } = .next t := by
  refine ⟨⟨_, rfl, .inl ?_⟩, rfl, rfl, _, rfl⟩
  intro h
  have h1 := congrArg (fun y => y.v.toList.getD 0 0) h
  revert h1
  decide +kernel

theorem open_protocol : ProtocolInv openState := by
  constructor <;> simp [openState, State.reset]

theorem busy_protocol (l : List Byte) (n : Nat) : ProtocolInv (busyWith l n) := by
  constructor <;> simp [busyWith, State.reset]

theorem witness_SessionChangesOnly :
    (ProtocolInv openState ∧ ∃ t, step (openState.withFetchWord 32 0x5) = .next t ∧ t.session ≠ openState.session) ∧
    (ProtocolInv (busyWith [0xFF, 0xFB, 0x00, 0xC4] 4) ∧
      ∃ t, step (busyWith [0xFF, 0xFB, 0x00, 0xC4] 4) = .next t ∧ t.session ≠ .streaming) :=
  ⟨⟨open_protocol, _, rfl, by decide +kernel⟩, busy_protocol _ _, _, rfl, by decide +kernel⟩

theorem witness_CountersCountEvents :
    (∃ t, step (endState.withFetchWord 32 0x2) = .next t) ∧
    (let s := endState.withFetchWord 32 0x2; nextCommand s = some .openFile ∧ s.engine = .idle) ∧
    nextCommand (busyZ.withFetchWord 32 0x1) = some .reset ∧
    nextIsReset { busyZ with inputs := [.reset] } = true ∧
    (nextCommand busyS ≠ some .openFile ∧ nextCommand busyS ≠ some .reset ∧ nextIsReset busyS = false) ∧
    ∃ t, step busyS = .next t :=
  ⟨⟨_, rfl⟩, by decide +kernel, by decide +kernel, by decide +kernel, by decide +kernel, _, rfl⟩

theorem witness_EndOfFileFlag :
    (ReaderInv (pullState 0 0) ∧ ∃ t, step ((pullState 0 0).withFetchWord 32 0x5) = .next t ∧
      (pullState 0 0).eof = false ∧ t.eof = true) ∧
    (∃ t, step (endState.withFetchWord 32 0x4) = .next t ∧ endState.eof = true ∧ t.eof = false) ∧
    (let s := { busyZ with eof := true }; (s.engine = .busy ∧ s.pending = .pulling) ∧ s.eof = true) := by
  refine ⟨⟨?_, _, rfl, rfl, by decide +kernel⟩, ⟨_, rfl, rfl, by decide +kernel⟩, by decide +kernel⟩
  constructor <;> simp [pullState, State.reset]

/-- The two states hold different bytes beyond the input. -/
theorem witness_HiddenBytesNeverObserved :
    let t := { busyS with ibuf := busyS.ibuf ++ [(417, 0x55#8)] }
    SameInput busyS t ∧ busyS.ibuf ≠ t.ibuf ∧ busyS.ibuf.wf = true ∧ t.ibuf.wf = true ∧
      ∃ s', step busyS = .next s' := by
  refine ⟨⟨rfl, ?_⟩, by decide +kernel, by decide +kernel, by decide +kernel, _, rfl⟩
  have h : ∀ a, a < 417 → Mem.read (busyS.ibuf ++ [(417, 0x55#8)]) a = busyS.ibuf.read a := by decide +kernel
  exact h

theorem witness_OpenForgetsOldSession :
    let s := State.reset
    let t := { pcmState with frames := 7 }
    s.engine = .idle ∧ t.engine = .idle ∧ t.ctrl = s.ctrl ∧ t.dbgSel = s.dbgSel ∧ t.ibufCap = s.ibufCap ∧
      t.inputs = s.inputs ∧ t.busError = s.busError ∧ t.epoch = s.epoch ∧ t.session ≠ s.session := by decide +kernel

/-- Two states that an OPEN left, with different sessions to replace. -/
theorem witness_SameInputSamePcm :
    let t := { openState with session := .exhausted, ibuf := [(0, 0x55#8)] }
    SameRun openState t ∧ openState.ibuf.wf = true ∧ t.ibuf.wf = true ∧ ProtocolInv openState ∧
      ∃ s', step openState = .next s' := by
  refine ⟨⟨rfl, fun h => absurd rfl h, ?_, ?_⟩, by decide +kernel, by decide +kernel, open_protocol, _, rfl⟩
  · intro a ha
    exact absurd (show a < 0 from ha) (by omega)
  · intro h
    exact absurd h (by decide +kernel)

theorem witness_DeliveredPcmLayout :
    ((headerOfWord 0xFFFB90C4#32).nch = 1 ∧ busyS.ctrl.getLsbD 0 = false) ∧
    (let s := { busyS with ctrl := 1 }
     s.ctrl.getLsbD 0 = true ∧ decodesWith 0xFFFB90C4#32 s = true ∧ s.engine = .busy ∧ s.pending = .pulling) ∧
    ((headerOfWord 0xFFFB9004#32).nch = 2 ∧ decodesWith 0xFFFB9004#32 busyTwo = true ∧ busyTwo.engine = .busy ∧
      busyTwo.pending = .pulling) := by decide +kernel

theorem witness_SnapshotShowsFrame :
    (((0x9FF#32).extractLsb' 0 10).toNat < 576 ∧ ((0x9FF#32).extractLsb' 10 1).toNat < 1) ∧
    (576 ≤ ((0x240#32).extractLsb' 0 10).toNat ∧ 1 ≤ ((0x400#32).extractLsb' 10 1).toNat) ∧
    (let s := busyDrop [0x00, 0x80]
     (s.engine = .busy ∧ s.pending = .pulling) ∧ (engineStep s).frames = s.frames) ∧
    nextIsReset { busyZ with inputs := [.reset] } = true ∧ endState.engine = .idle ∧
    (let s := { endState with isSnap := #v[zeroSnap[0], #v[Vector.replicate 576 1, Vector.replicate 576 0]] }
     ∃ t, step (s.withFetchWord 32 0x2) = .next t ∧ t.isSnap ≠ s.isSnap) := by
  refine ⟨by decide +kernel, by decide +kernel, by decide +kernel, rfl, by decide +kernel, _, rfl, fun h => ?_⟩
  have h1 := congrArg (fun n => snapLine n 1 0 0) h
  revert h1
  decide +kernel

/-- Each event of CountersCountEvents comes in some state: a skip, a drop, a delivery. -/
theorem witness_CountersCountEvents_events :
    headerStage (busyWith [0xFF, 0xFB, 0x9C, 0xC4] 4) = .syncSkip ∧
    (∃ c, decodeFrame (headerOfWord 0xFFFB90C4#32)
      (frameBytes (busyDrop [0, 0, 0, 0x02, 0x42]) (headerOfWord 0xFFFB90C4#32)) [] = .error c) ∧
    ∃ f, decodeFrame (headerOfWord 0xFFFB90C4#32) (frameBytes busyS (headerOfWord 0xFFFB90C4#32)) busyS.res = .ok f := by
  obtain ⟨f, -, -, h⟩ := witness_FrameDeliveryStep
  exact ⟨by decide +kernel, ⟨_, witness_FrameDropStep.2.2⟩, f, h⟩

theorem witness_DecodedValuesInRange :
    headerValid (headerOfWord 0xFFFB90C4#32) = true ∧ freeFormat (headerOfWord 0xFFFB90C4#32) = false ∧
    ∃ f, decodeFrame (headerOfWord 0xFFFB90C4#32) (frameBytes busyS (headerOfWord 0xFFFB90C4#32)) busyS.res =
      .ok f := by
  obtain ⟨f, -, h⟩ := frame_of_decodesWith (H := 0xFFFB90C4#32) (s := busyS) (by decide +kernel)
  exact ⟨by decide +kernel, by decide +kernel, f, h⟩

theorem witness_ScalefactorReads :
    (let g := { (default : GranuleInfo) with blockType := 2 }; g.blockType = 2 ∧ g.mixedBlock = false) ∧
    (let g := { (default : GranuleInfo) with blockType := 2, mixedBlock := true }
     g.blockType = 2 ∧ g.mixedBlock = true) ∧
    (let g := { (default : GranuleInfo) with blockType := 3 }; g.blockType ≠ 2) ∧
    (20 < 21 ∧ (decide (1 = 1) && Nat.testBit 1 (3 - 3)) = true) ∧ (8 ≤ 21 ∧ 21 < 22) := by decide

theorem witness_LineLayout :
    2 < 3 ∧ 575 < 576 ∧ (default : GranuleInfo).blockType ≠ 2 ∧
    (let g := { (default : GranuleInfo) with blockType := 2, mixedBlock := true }
     g.blockType = 2 ∧ g.mixedBlock = true ∧ 35 < 36 ∧ 36 ≤ 36) ∧
    (let g := { (default : GranuleInfo) with blockType := 2 }; g.blockType = 2 ∧ g.mixedBlock = false) := by decide

/-- Two lists that agree on the first 55 bits only. -/
theorem witness_HuffmanReadsLocally :
    let a := List.replicate 55 true
    let b := List.replicate 56 true
    (∀ i, i < 8 - 0 + (19 + 13 + 1 + 13 + 1) → a.getD i false = b.getD i false) ∧ a ≠ b := by decide +kernel

/-- A silent frame with a header. -/
def silentFrame (H : Word) : FrameIn := ⟨headerOfWord H, 0, noChan, noChan⟩

theorem silent_lines (x : Part) (h : x.lines = Vector.replicate 576 0) : ∀ v ∈ x.lines.toList, v = 0 := by
  intro v hv
  rw [h, Vector.toList_replicate] at hv
  exact List.eq_of_mem_replicate hv

theorem silentFrame_fits : frameFits (silentFrame 0xFFFB90C4#32) := by
  have h : partFits noPart := by
    refine ⟨by decide +kernel, fun v hv => ?_, by decide +kernel, by decide +kernel⟩
    rw [silent_lines noPart rfl v hv]
    decide
  refine ⟨by decide +kernel, by decide +kernel, by decide +kernel, by decide +kernel, by decide +kernel, fun gr ch => ?_⟩
  unfold framePart silentFrame noChan
  simp only
  split <;> split <;> exact h

theorem witness_FxProperties :
    (silentFrame 0xFFFB90C4#32).header.nch = 1 ∧
    ((silentFrame 0xFFFB9064#32).header.nch = 2 ∧ (silentFrame 0xFFFB9064#32).header.joint = true) ∧
    ((silentFrame 0xFFFB9004#32).header.nch = 2 ∧ (silentFrame 0xFFFB9004#32).header.joint = false ∧
      (silentFrame 0xFFFB9004#32).header.mode ≠ 1#2) ∧
    silentChan noChan = true ∧
    (∃ f, (∀ g ∈ f :: [], frameFits g) ∧ 0 < f.header.nch ∧ 1151 < 1152 ∧
      -(2 ^ 31) ≤ scaledPcm (fun _ => 0) [] f 0 1151 ∧ scaledPcm (fun _ => 0) [] f 0 1151 ≤ 2 ^ 31 - 1) := by
  refine ⟨by decide +kernel, by decide +kernel, by decide +kernel, by decide +kernel, silentFrame 0xFFFB90C4#32,
    by simpa using silentFrame_fits, by decide +kernel, by decide, ?_⟩
  have h : scaledPcm (fun _ => 0) [] (silentFrame 0xFFFB90C4#32) 0 1151 = 0 := by
    simp [scaledPcm, framePcm, granulePcm, polyOut, realCoefs]
  rw [h]
  norm_num

theorem silent_of_all {f : FrameIn} (h : (silentChan f.ch0 && silentChan f.ch1) = true) (gr ch : Nat) :
    ∀ v ∈ (framePart f gr ch).lines.toList, v = 0 := by
  simp only [silentChan, silentLines, Bool.and_eq_true, List.all_eq_true, decide_eq_true_eq] at h
  unfold framePart
  simp only
  split <;> split
  · exact h.1.1
  · exact h.2.1
  · exact h.1.2
  · exact h.2.2

/-- The state's frame decodes, to a silent one. -/
def silentDecode (s : State) : Bool :=
  match headerStage s with
  | .frame H =>
    match decodeFrame (headerOfWord H) (frameBytes s (headerOfWord H)) s.res with
    | .ok f    => silentChan f.ch0 && silentChan f.ch1
    | .error _ => false
  | _ => false

theorem witness_SilentFrameGivesSilence :
    ∃ f, decoding busyZ ∧ headerStage busyZ = .frame 0xFFFB90C4#32 ∧
      decodeFrame (headerOfWord 0xFFFB90C4#32) (frameBytes busyZ (headerOfWord 0xFFFB90C4#32)) busyZ.res = .ok f ∧
      (∀ gr ch, ∀ v ∈ (framePart f gr ch).lines.toList, v = 0) ∧ busyZ.syn0 = zeroSyn ∧ busyZ.syn1 = zeroSyn := by
  obtain ⟨f, h1, h2⟩ := frame_of_decodesWith (H := 0xFFFB90C4#32) (s := busyZ) (by decide +kernel)
  have h3 : silentDecode busyZ = true := by decide +kernel
  unfold silentDecode at h3
  rw [h1] at h3
  simp only [h2] at h3
  exact ⟨f, ⟨rfl, rfl⟩, h1, h2, silent_of_all h3, rfl, rfl⟩

/-- Every coefficient 0. -/
def zeroCoefs : Coefs Int where
  pow43 _ := 0
  quarterPow _ := 0
  invSqrt2 := 0
  kL _ := 0
  kR _ := 0
  cs _ := 0
  ca _ := 0
  longCos _ _ := 0
  win _ _ := 0
  shortCos _ _ := 0
  winShort _ := 0
  polyCos _ _ := 0
  synthD _ := 0

theorem witness_ReferenceKeepsZero : ∀ gr n, frameSpectrum zeroCoefs (silentFrame 0xFFFB90C4#32) gr 0 n = 0 := by
  intro gr n
  have h : (silentFrame 0xFFFB90C4#32).header.nch = 1 := by decide +kernel
  unfold frameSpectrum Sys2Proof.Machine.spectrum
  simp only
  rw [if_pos h]
  unfold requantize
  exact Int.zero_mul _

/-- Granule 0 short and granule 1 mixed: the first and last short bands, windows and lines, each kind of subband, the one
boundary with butterflies of a mixed layout, and a channel that the frame does not have. -/
theorem witness_ReferenceKeepsZero_sums :
    let g := { (default : GranuleInfo) with blockType := 2 }
    let m := { g with mixedBlock := true }
    let f : FrameIn := { silentFrame 0xFFFB90C4#32 with ch0 := ⟨0, { noPart with info := g }, { noPart with info := m }⟩ }
    f.header.samplingFrequency ≠ 3#2 ∧ 0 < f.header.nch ∧ f.header.nch ≤ 1 ∧
    ((framePart f 0 0).info.blockType = 2 ∧ 12 < 13 ∧ 2 < 3 ∧ 55 < sfbS 0 13 - sfbS 0 12 ∧ 0 < sfbS 0 1 - sfbS 0 0) ∧
    ((framePart f 1 0).info.blockType = 2 ∧ (framePart f 1 0).info.mixedBlock = true ∧ 35 < 36 ∧ 1 ≤ 1 ∧ 7 < 8) ∧
    (∀ sb i, 1 ≤ sb → sb ≤ 1 → i < 8 → 36 ≠ 18 * sb - 1 - i ∧ 36 ≠ 18 * sb + i) ∧
    (1 < 2 ∧ 31 < 32 ∧ 17 < 18 ∧ 1 < (silentFrame 0xFFFB9064#32).header.nch) := by
  refine ⟨by decide +kernel, by decide +kernel, by decide +kernel, by decide +kernel, by decide +kernel, ?_, by decide⟩
  omega

theorem witness_RequantisationFormula :
    (headerOfWord 0xFFFB90C4#32).nch = 1 ∧
    linePlace 0 default 0 = .long 0 ∧ linePlace 0 default 575 = .long 21 ∧
    linePlace 2 { (default : GranuleInfo) with blockType := 2 } 575 = .short 12 2 11 := by decide +kernel

theorem witness_JointStereoReference :
    (let h := headerOfWord 0xFFFB9004#32; h.nch = 2 ∧ h.joint = false) ∧
    (let h := headerOfWord 0xFFFB9044#32; h.nch = 2 ∧ h.modeExtension = 0#2) ∧
    (let h := headerOfWord 0xFFFB9064#32; h.nch = 2 ∧ h.joint = true ∧ h.modeExtension = 2#2) ∧
    (let h := headerOfWord 0xFFFB9054#32; h.nch = 2 ∧ h.joint = true ∧ h.modeExtension.getLsbD 0 = true) ∧
    575 < 576 ∧ ¬ (noPart.info.blockType = 2 ∧ noPart.info.mixedBlock = true) ∧
    (∀ v ∈ noPart.lines.toList, v = 0) ∧ (∀ k ∈ noPart.scf.long.toList, k = 0) ∧
    (∀ k ∈ noPart.scf.short.toList, k = 0) :=
  ⟨by decide +kernel, by decide +kernel, by decide +kernel, by decide +kernel, by decide, by decide +kernel,
    silent_lines _ rfl, by decide +kernel, by decide +kernel⟩

/-- Silent parts with a position of 3 in long band 1, and of 7 in short band 5: an intensity line, and none. -/
theorem witness_JointStereoReference_positions :
    let p := { noPart with scf := ⟨fillTo 22 0 [0, 3], fillTo 39 0 (List.replicate 39 7)⟩ }
    let mixed := { p with info := { (default : GranuleInfo) with blockType := 2, mixedBlock := true } }
    (headerOfWord 0xFFFB9054#32).samplingFrequency ≠ 3#2 ∧
    (linePlace 0 p.info 5 = .long 1 ∧ p.info.blockType ≠ 2 ∧ Scalefac.longAt p.scf 1 = 3) ∧
    (∀ k, p.lines.toList.getD k 0 = 0) ∧
    (linePlace 0 mixed.info 5 = .long 1 ∧ linePlace 0 mixed.info 66 = .short 5 0 0 ∧ Scalefac.shortAt mixed.scf 5 0 = 7)
    := by
  refine ⟨by decide +kernel, by decide +kernel, fun k => ?_, by decide +kernel⟩
  show (Vector.replicate 576 (0 : Int)).toList.getD k 0 = 0
  rw [Vector.toList_replicate, List.getD_eq_getElem?_getD, List.getElem?_replicate]
  split <;> rfl

end Sys2Proof.Tests
end

section
/-! PROOF. What a step runs (O9), what a register read answers (O10), and the invariants after reset (O39). -/

namespace Sys2Proof.Machine

/-! ## Steps -/

/-- With no input left a step is an engine step (10_state.md R51). -/
theorem step_nil {s : State} (h : s.inputs = []) : step s = .next (engineStep s) := by
  simp only [step, nextStep, h]

/-- A step takes the first input (20_memory.md R170). -/
theorem step_cons {s : State} {e : Event} {es : List Event} (h : s.inputs = e :: es) :
    step s = runEvent e { s with inputs := es } := by simp only [step, nextStep, h]

/-- The step that takes a legal word's write to CMD runs its command (47_session_commands.md R681). -/
theorem step_write_cmd {s : State} {es : List Event} {v : Word} {i : Instr} (h : s.inputs = .write 0x008 4 v :: es)
    (hd : decode v = .ok i) : step s = exec i (respond false 0 (tick { s with inputs := es })) :=
  (step_cons h).trans (hostWrite_cmd _ hd)

/-- The word that `withFetchWord` places is the command's own. -/
theorem withFetchWord_encode (s : State) (i : Instr) :
    s.withFetchWord 32 (encode i).toNat = { s with inputs := .write 0x008 4 (encode i) :: s.inputs } := by
  have hw : BitVec.ofNat 32 ((encode i).toNat % 2 ^ 32) = encode i := by
    rw [Nat.mod_eq_of_lt (encode i).isLt, BitVec.ofNat_toNat, BitVec.setWidth_eq]
  rw [State.withFetchWord, hw]

/-! ## Register reads -/

/-- An aligned 4-byte read of a register answers its value, without bus error (20_memory.md R152). -/
theorem hostRead_reg (r : Reg) (s : State) : hostRead r.offset 4 s = .next (respond false (readReg s r) s) := by
  rw [hostRead, targetOf_offset]

/-- STATUS bit by bit (10_state.md R63). -/
theorem statusWord_getLsbD (s : State) {n : Nat} (hn : n < 32) : (statusWord s).getLsbD n =
    if n < 2 then s.engine.code.getLsbD n
    else if n < 4 then s.session.code.getLsbD (n - 2)
    else if n < 5 then s.pcmValid
    else if n < 6 then s.eos
    else if n < 7 then s.eof
    else if n < 8 then s.done
    else if n < 12 then s.err.code.getLsbD (n - 8)
    else s.pending.code.getLsbD (n - 12) := by
  simp only [statusWord, BitVec.getLsbD_append]
  interval_cases n <;> simp

/-- A field of STATUS is a code when it has the code's bits. -/
theorem statusWord_field {s : State} {start len : Nat} {code : BitVec len}
    (h : ∀ i, i < len → (statusWord s).getLsbD (start + i) = code.getLsbD i) :
    (statusWord s).extractLsb' start len = code :=
  BitVec.eq_of_getLsbD_eq fun i hi => by rw [BitVec.getLsbD_extractLsb', h i hi, decide_eq_true hi, Bool.true_and]

theorem statusWord_engine (s : State) : (statusWord s).extractLsb' 0 2 = s.engine.code :=
  statusWord_field fun i hi => by interval_cases i <;> exact statusWord_getLsbD s (by decide)

theorem statusWord_session (s : State) : (statusWord s).extractLsb' 2 2 = s.session.code :=
  statusWord_field fun i hi => by interval_cases i <;> exact statusWord_getLsbD s (by decide)

theorem statusWord_err (s : State) : (statusWord s).extractLsb' 8 4 = s.err.code :=
  statusWord_field fun i hi => by interval_cases i <;> exact statusWord_getLsbD s (by decide)

theorem statusWord_pending (s : State) : (statusWord s).extractLsb' 12 4 = s.pending.code :=
  statusWord_field fun i hi => by interval_cases i <;> exact statusWord_getLsbD s (by decide)

theorem statusWord_high (s : State) : (statusWord s).extractLsb' 16 16 = 0#16 :=
  statusWord_field fun i hi => by
    interval_cases i <;> exact (statusWord_getLsbD s (by decide)).trans (by simp)

/-! ## The reset state -/

/-- Every value of the cleared snapshot is 0 (10_state.md R120). -/
@[simp] theorem snapLine_zeroSnap (gr ch line : Nat) : snapLine zeroSnap gr ch line = 0 := by
  have entry {α : Type} (n i : Nat) (x : α) : (Vector.replicate n x).toList.getD i x = x := by simp
  simp only [snapLine, zeroSnap, entry]

/-- A reset, with a capacity that 00_scope.md R8 allows, leaves every invariant (10_state.md R120). -/
theorem inv_resetBlock {s : State} (h : 1441 ≤ s.ibufCap) : Inv (resetBlock s) where
  reader := by constructor <;> simp [h]
  buffer := by constructor <;> simp [Mem.wf]
  protocol := by constructor <;> simp
  pcm := by constructor <;> simp
  format := by constructor <;> simp
  range := by constructor <;> simp

/-! ## The obligations -/

/-- Settles O9: a step takes the first input, and a write of a legal word to CMD runs the command. -/
theorem stepRunsWrittenCommand : Obligations.StepRunsWrittenCommand := by
  refine ⟨fun s es v i => step_write_cmd, fun s i => ?_, fun s => step_nil, fun s es => step_cons,
    fun s es => step_cons, fun s es off len => step_cons, fun s es off len v => step_cons⟩
  rw [withFetchWord_encode, step_write_cmd rfl (decode_encode i)]

/-- Settles O10: each register's offset reaches it, and STATUS and DIAG_CAUSE are their fields' codes. -/
theorem registersRead : Obligations.RegistersRead := by
  intro s
  refine ⟨hostRead_reg .id s, hostRead_reg .ctrl s, hostRead_reg .cmd s, hostRead_reg .status s, ?engine, ?session,
    statusWord_getLsbD s (n := 4) (by decide), statusWord_getLsbD s (n := 5) (by decide),
    statusWord_getLsbD s (n := 6) (by decide), statusWord_getLsbD s (n := 7) (by decide), ?err, ?pending,
    statusWord_high s, hostRead_reg .refillMax s, hostRead_reg .refillCount s, hostRead_reg .inData s,
    hostRead_reg .header s, hostRead_reg .sampleRate s, hostRead_reg .bitrate s, hostRead_reg .srcChannels s,
    hostRead_reg .pcmLength s, hostRead_reg .pcmChannels s, hostRead_reg .frames s, hostRead_reg .resyncs s,
    hostRead_reg .dropped s, hostRead_reg .diagCause s, ?cause, hostRead_reg .bufLevel s,
    hostRead_reg .dbgSel s, hostRead_reg .dbgData s, rfl⟩
  case engine => rw [statusWord_engine]; cases s.engine <;> rfl
  case session => rw [statusWord_session]; cases s.session <;> rfl
  case err => rw [statusWord_err]; cases s.err <;> rfl
  case pending => rw [statusWord_pending]; cases s.pending <;> rfl
  case cause => cases s.diagCause <;> rfl

/-- Settles O39: the reset state is what a reset makes of itself, and its capacity is 4096. -/
theorem resetMeetsInvariants : Obligations.ResetMeetsInvariants :=
  inv_resetBlock (s := State.reset) (by decide)

end Sys2Proof.Machine
end

section
/-! PROOF. How the counters and DIAG_CAUSE change in a step (O44). -/

namespace Sys2Proof.Machine

/-! ## What a drop's cause and length can be -/

/-- The causes that a part of a frame fails with (42_side_info_main_data.md R426; 43_huffman.md R453, R459, R460). -/
def PartCause (c : Cause) : Prop :=
  c = .scalefacOverrun ∨ c = .badTable ∨ c = .huffmanOverrun ∨ c = .badHuffcode

theorem decodePart_error {freq gr scfsi start : Nat} {prev : Scalefac} {g : GranuleInfo} {bits : List Bool} {c : Cause}
    (h : decodePart freq gr scfsi prev g bits start = .error c) : PartCause c := by
  unfold decodePart at h
  simp only at h
  split at h
  · simp only [Except.error.injEq] at h
    exact .inl h.symm
  · split at h
    · rename_i hd
      simp only [Except.error.injEq] at h
      subst h
      rcases decodeSpectrum_error hd with ⟨-, h⟩ | ⟨-, h⟩
      · exact .inr (.inl h)
      · exact .inr (.inr h)
    · simp at h

/-- A frame's parts fail only where one of them does (42_side_info_main_data.md R410 step 6). -/
theorem decodeParts_error {h : Header} {x : SideInfo} {bits : List Bool} {start : Nat} {c : Cause}
    (he : decodeParts h x bits start = .error c) : PartCause c := by
  unfold decodeParts decodeMono decodeStereo at he
  repeat' split at he
  all_goals simp only [Except.error.injEq, reduceCtorEq] at he
  all_goals
    subst he
    exact decodePart_error ‹_›

/-- A frame fails with the code of a drop, 2 or more (60_exceptions.md R702). -/
theorem decodeFrame_error_code {h : Header} {frame res : List Byte} {c : Cause}
    (he : decodeFrame h frame res = .error c) : 2 ≤ c.code.toNat := by
  unfold decodeFrame at he
  simp only at he
  split at he
  · cases he
    decide
  split at he
  · rename_i hs
    cases he
    obtain ⟨-, g, -, -, -, hg⟩ := sideInfoCheck_some.1 hs
    rcases granuleCheck_some hg with rfl | rfl <;> decide
  split at he
  · cases he
    decide
  split at he
  · rename_i hp
    cases he
    rcases decodeParts_error hp with rfl | rfl | rfl | rfl <;> decide
  · cases he

/-- The frame lengths without padding, over the two table indices (41_frame_header.md R356). -/
theorem frameLength_table : ∀ (b : BitVec 4) (f : BitVec 2), b ≠ 0#4 → b ≠ 15#4 → f ≠ 3#2 →
    96 ≤ 144000 * bitrateTable.getD b.toNat 0 / frequencyTable.getD f.toNat 0 ∧
      144000 * bitrateTable.getD b.toNat 0 / frequencyTable.getD f.toNat 0 ≤ 1440 := by decide

/-- A frame that the header stage lets through has 96 to 1441 bytes (41_frame_header.md R356). -/
theorem frameLength_bounds {h : Header} (hv : headerValid h = true) (hf : freeFormat h = false) :
    96 ≤ h.frameLength ∧ h.frameLength ≤ 1441 := by
  simp only [headerValid, Bool.and_eq_true, decide_eq_true_eq] at hv
  simp only [freeFormat, decide_eq_false_iff_not] at hf
  obtain ⟨⟨-, hb⟩, hs⟩ := hv
  have ht := frameLength_table h.bitrateIndex h.samplingFrequency hf hb hs
  have hp := h.padding.isLt
  unfold Header.frameLength Header.kbps Header.fs
  omega

/-! ## The outcomes of an iteration, one equation each (47_session_commands.md R672) -/

theorem iteration_skip {s : State} (h : headerStage s = .syncSkip) : iteration s = syncSkip s := by
  simp only [iteration, h]

theorem iteration_drop {s : State} {H : Word} {c : Cause} (h : headerStage s = .frame H)
    (hd : decodeFrame (headerOfWord H) (frameBytes s (headerOfWord H)) s.res = .error c) :
    iteration s = dropFrame c (headerOfWord H).frameLength
      (s.res ++ mainDataOf (headerOfWord H) (frameBytes s (headerOfWord H))) s := by
  simp only [iteration, h, processFrame, hd]

theorem iteration_deliver {s : State} {H : Word} {f : FrameIn} (h : headerStage s = .frame H)
    (hd : decodeFrame (headerOfWord H) (frameBytes s (headerOfWord H)) s.res = .ok f) :
    iteration s = deliver H f (s.res ++ mainDataOf (headerOfWord H) (frameBytes s (headerOfWord H))) s := by
  simp only [iteration, h, processFrame, hd]

/-! ## The counters -/

/-- The three counters and DIAG_CAUSE are 0 (10_state.md R73 to R76). -/
def CountersCleared (t : State) : Prop := t.frames = 0 ∧ t.resyncs = 0 ∧ t.dropped = 0 ∧ t.diagCause = .none

/-- The three counters and DIAG_CAUSE stay. -/
def CountersKept (s t : State) : Prop :=
  t.frames = s.frames ∧ t.resyncs = s.resyncs ∧ t.dropped = s.dropped ∧ t.diagCause = s.diagCause

/-- FRAMES stays, or counts a delivery; RESYNCS, DROPPED and DIAG_CAUSE stay, or record a skip, or record a drop. -/
def CountersMoved (s t : State) : Prop :=
  (t.frames = s.frames ∨ (t.frames = s.frames + 1 ∧ decoding s ∧ t.pcmValid = true)) ∧
  ((t.resyncs = s.resyncs ∧ t.dropped = s.dropped ∧ t.diagCause = s.diagCause) ∨
    (t.resyncs = s.resyncs + 1 ∧ t.dropped = s.dropped ∧ t.diagCause = .syncSkip ∧ t.pos = s.pos + 1) ∨
    (t.resyncs = s.resyncs ∧ t.dropped = s.dropped + 1 ∧ 2 ≤ t.diagCause.code.toNat ∧ s.pos < t.pos))

theorem CountersKept.moved {s t : State} (h : CountersKept s t) : CountersMoved s t := by
  obtain ⟨hf, hrest⟩ := h
  exact ⟨.inl hf, .inl hrest⟩

/-- What moves the counters of the same block moves those of the state before. -/
theorem SameBlock.countersMoved {s b t : State} (hb : SameBlock s b) (h : CountersMoved b t) : CountersMoved s t := by
  rw [hb] at h
  exact h

theorem SameBlock.engine_eq {s b : State} (hb : SameBlock s b) : b.engine = s.engine := by rw [hb]

/-- An iteration of a decoding PULL moves the counters as its outcome says: only a skip, a drop and a delivery do. -/
theorem iteration_countersMoved {s : State} (h : decoding s) : CountersMoved s (iteration s) := by
  rcases iteration_cases s with ⟨-, e⟩ | ⟨-, e⟩ | ⟨-, e⟩ | ⟨H, c, hs, hd, e⟩ | ⟨H, f, -, -, e⟩ <;> rw [e]
  · exact CountersKept.moved ⟨rfl, rfl, rfl, rfl⟩
  · exact CountersKept.moved ⟨rfl, rfl, rfl, rfl⟩
  · exact ⟨.inl rfl, .inr (.inl ⟨rfl, rfl, rfl, rfl⟩)⟩
  · obtain ⟨-, -, -, hv, hf, -, -⟩ := headerStage_frame hs
    have hlen := frameLength_bounds hv hf
    refine ⟨.inl rfl, .inr (.inr ⟨rfl, rfl, decodeFrame_error_code hd, ?_⟩)⟩
    simp only [dropFrame_pos]
    omega
  · exact ⟨.inr ⟨rfl, h, rfl⟩, .inl ⟨rfl, rfl, rfl⟩⟩

theorem engineStep_countersMoved (s : State) : CountersMoved s (engineStep s) := by
  by_cases h : decoding s
  · rw [engineStep_decoding h]
    exact iteration_countersMoved (s := tick s) h
  · rw [engineStep_waiting h]
    exact CountersKept.moved ⟨rfl, rfl, rfl, rfl⟩

theorem writeInData_countersKept (v : Word) (s : State) : CountersKept s (writeInData v s) := by
  rcases writeInData_cases v s with ⟨-, e⟩ | ⟨-, -, e⟩ | ⟨-, -, e⟩ <;> rw [e] <;> exact ⟨rfl, rfl, rfl, rfl⟩

/-- Of what is neither a command nor a reset, only an engine step moves the counters. -/
theorem PlainMove.countersMoved {b t : State} (h : PlainMove b t) : CountersMoved b t := by
  rcases h with rfl | rfl | ⟨v, rfl⟩ | rfl | ⟨v, rfl⟩ | ⟨v, rfl⟩
  case inr.inl => exact engineStep_countersMoved b
  case inr.inr.inl => exact (writeInData_countersKept v b).moved
  all_goals exact CountersKept.moved ⟨rfl, rfl, rfl, rfl⟩

/-- No command's effect but OPEN's and RESET's writes the counters (10_state.md R73 to R76). -/
theorem effectOf_countersKept {i : Instr} (s : State) (ho : i ≠ .openFile) (hr : i ≠ .reset) :
    CountersKept s (effectOf i s) := by
  cases i with
  | reset => exact absurd rfl hr
  | openFile => exact absurd rfl ho
  | pull =>
    by_cases h : s.session = .exhausted
    · simp [effectOf, CountersKept, pullEffect_exhausted h]
    · simp [effectOf, CountersKept, pullEffect_streaming h]
  | refillDone =>
    by_cases h : s.pending = .opening
    · simp [effectOf, CountersKept, refillEffect_open h]
    · simp [effectOf, CountersKept, refillEffect_pull h]
  | refillDoneErr =>
    by_cases h : s.pending = .opening
    · simp [effectOf, CountersKept, refillEffect_open_err h]
    · simp [effectOf, CountersKept, refillEffect_pull_err h]
  | _ => exact ⟨rfl, rfl, rfl, rfl⟩

theorem exec_countersKept {i : Instr} {s t : State} (ho : i ≠ .openFile) (hr : i ≠ .reset)
    (h : exec i s = .next t) : CountersKept s t := by
  rw [exec_eq_issue, Host.Outcome.next.injEq] at h
  subst h
  rcases issue_cases i (effectOf i) s with ⟨e, -, he⟩ | ⟨-, he⟩ <;> rw [he]
  · exact ⟨rfl, rfl, rfl, rfl⟩
  · exact effectOf_countersKept s ho hr

/-- An accepted OPEN clears the counters (47_session_commands.md R660). -/
theorem exec_openFile_countersCleared {s t : State} (hs : s.engine = .idle) (h : exec .openFile s = .next t) :
    CountersCleared t := by
  rw [exec_eq_issue, issue_accepted (by simp [rejection, hs]), Host.Outcome.next.injEq] at h
  subst h
  exact ⟨rfl, rfl, rfl, rfl⟩

/-- RESET clears the counters in every state (47_session_commands.md R656). -/
theorem exec_reset_countersCleared {s t : State} (h : exec .reset s = .next t) : CountersCleared t := by
  rw [exec_eq_issue, issue_accepted rfl, Host.Outcome.next.injEq] at h
  subst h
  exact ⟨rfl, rfl, rfl, rfl⟩

/-- What a step does to the counters where it sets them to 0. -/
theorem step_countersCleared {s t : State} (h : step s = .next t)
    (hc : (nextCommand s = some .openFile ∧ s.engine = .idle) ∨ nextCommand s = some .reset ∨ nextIsReset s = true) :
    CountersCleared t := by
  obtain ⟨b, hb, ⟨hn, hr, -⟩ | ⟨hr, i, hi, hx⟩ | ⟨-, -, rfl⟩⟩ := step_moves h
  · simp [hn, hr] at hc
  · simp only [hi, hr, Option.some.injEq, Bool.false_eq_true, or_false] at hc
    obtain ⟨rfl, hs⟩ | rfl := hc
    · exact exec_openFile_countersCleared (hb.engine_eq.trans hs) hx
    · exact exec_reset_countersCleared hx
  · exact ⟨rfl, rfl, rfl, rfl⟩

/-- What any other step does to them. -/
theorem step_countersMoved {s t : State} (h : step s = .next t) (ho : nextCommand s ≠ some .openFile)
    (hr : nextCommand s ≠ some .reset) (hreset : nextIsReset s = false) : CountersMoved s t := by
  obtain ⟨b, hb, ⟨-, -, hp⟩ | ⟨-, i, hi, hx⟩ | ⟨-, ht, -⟩⟩ := step_moves h
  · exact hb.countersMoved hp.countersMoved
  · refine hb.countersMoved (exec_countersKept (fun e => ho ?_) (fun e => hr ?_) hx).moved
    · rw [hi, e]
    · rw [hi, e]
  · simp [ht] at hreset

/-! ## The obligations -/

/-- Settles O44: OPEN and reset clear the counters, a plain step moves them as its engine step's outcome says, and each
outcome of a decoding step is counted. -/
theorem countersCountEvents : Obligations.CountersCountEvents := by
  refine ⟨fun s t h => ⟨step_countersCleared h, step_countersMoved h⟩, fun s hdec => ?_⟩
  simp only [engineStep_decoding hdec]
  refine ⟨fun hs => ?skip, fun H c hs hd => ?drop, fun H f hs hd => ?delivery⟩
  case skip =>
    rw [iteration_skip (s := tick s) hs]
    exact ⟨rfl, rfl⟩
  case drop =>
    rw [iteration_drop (s := tick s) hs hd]
    exact ⟨rfl, rfl⟩
  case delivery =>
    rw [iteration_deliver (s := tick s) hs hd]
    rfl

end Sys2Proof.Machine
end

section
/-! PROOF. What host accesses of the window answer and change (O11 to O15). -/

namespace Sys2Proof.Machine

/-! ## Which accesses are bus errors, and which reach nothing -/

theorem misaligned_iff {off len : Nat} :
    misaligned off len = true ↔ (len = 2 ∧ off % 2 ≠ 0) ∨ (len = 4 ∧ off % 4 ≠ 0) := by simp [misaligned]

/-- A misaligned access is a bus error anywhere in the window (20_memory.md R158). -/
theorem targetOf_misaligned {off len : Nat} (h : off < 0x4000) (hm : misaligned off len = true) :
    targetOf off len = .busError := by
  rw [targetOf, if_neg (by omega), if_pos hm]

/-- In the register region every access but an aligned 4-byte one is a bus error (20_memory.md R158). -/
theorem targetOf_register_busError {off len : Nat} (h : off < 0x1000) (hs : ¬ (len = 4 ∧ off % 4 = 0)) :
    targetOf off len = .busError := by
  by_cases hm : misaligned off len = true
  · exact targetOf_misaligned (by omega) hm
  · have hlen : len ≠ 4 := by
      rw [misaligned_iff] at hm
      omega
    rw [targetOf, if_neg (by omega), if_neg hm, if_pos h, if_neg hlen]

/-- In the PCM region an access of size 1 or above 4 is a bus error (20_memory.md R158). -/
theorem targetOf_pcm_busError {off len : Nat} (h : 0x2000 ≤ off ∧ off < 0x3200) (hs : len = 1 ∨ 4 < len) :
    targetOf off len = .busError := by
  have hm : ¬ misaligned off len = true := by
    rw [misaligned_iff]
    omega
  rw [targetOf, if_neg (by omega), if_neg hm, if_neg (by omega), if_pos h, if_neg (by omega), if_neg (by omega),
    if_pos hs]

/-- Past the last register nothing is behind an aligned 4-byte access of the register region (20_memory.md R157). -/
theorem targetOf_unlisted {off : Nat} (h : 0x50 ≤ off ∧ off < 0x1000) (ha : off % 4 = 0) :
    targetOf off 4 = .unmapped := by
  have hm : ¬ misaligned off 4 = true := by
    rw [misaligned_iff]
    omega
  rw [targetOf, if_neg (by omega), if_neg hm, if_pos h.2, if_pos rfl, regAt_none h.1]

/-- In the gap and the tail nothing is behind an aligned access of 2 or 4 bytes (20_memory.md R157). -/
theorem targetOf_gap {off len : Nat} (h : (0x1000 ≤ off ∧ off < 0x2000) ∨ (0x3200 ≤ off ∧ off < 0x4000))
    (hs : (len = 2 ∧ off % 2 = 0) ∨ (len = 4 ∧ off % 4 = 0)) : targetOf off len = .unmapped := by
  have hm : ¬ misaligned off len = true := by
    rw [misaligned_iff]
    omega
  rw [targetOf, if_neg (by omega), if_neg hm, if_neg (by omega), if_neg (by omega), if_pos (by omega)]

/-! ## What an access does, by its target -/

theorem hostRead_busError {off len : Nat} (s : State) (h : targetOf off len = .busError) :
    hostRead off len s = .next (respond true 0 s) := by rw [hostRead, h]

theorem hostWrite_busError {off len : Nat} (v : Word) (s : State) (h : targetOf off len = .busError) :
    hostWrite off len v s = .next (respond true 0 (tick s)) := by rw [hostWrite, h]

theorem hostRead_unmapped {off len : Nat} (s : State) (h : targetOf off len = .unmapped) :
    hostRead off len s = .next (respond false 0 s) := by rw [hostRead, h]

theorem hostWrite_unmapped {off len : Nat} (v : Word) (s : State) (h : targetOf off len = .unmapped) :
    hostWrite off len v s = .next (respond false 0 (tick s)) := by rw [hostWrite, h]

/-- A 2-byte read answers its entry (20_memory.md R153). -/
theorem hostRead_pcm2 {k : Nat} (s : State) (h : k < 2304) :
    hostRead (0x2000 + 2 * k) 2 s = .next (respond false ((pcmEntry s k).setWidth 32) s) := by
  rw [hostRead, targetOf_pcm2 h]

/-- A 4-byte read answers the odd entry above the even one (20_memory.md R154). -/
theorem hostRead_pcm4 {k : Nat} (s : State) (h : k < 1152) :
    hostRead (0x2000 + 4 * k) 4 s = .next (respond false (pcmEntry s (2 * k + 1) ++ pcmEntry s (2 * k)) s) := by
  rw [hostRead, targetOf_pcm4 h]
  rfl

theorem hostWrite_pcm2 {k : Nat} (v : Word) (s : State) (h : k < 2304) :
    hostWrite (0x2000 + 2 * k) 2 v s = .next (respond false 0 (tick s)) := by rw [hostWrite, targetOf_pcm2 h]

theorem hostWrite_pcm4 {k : Nat} (v : Word) (s : State) (h : k < 1152) :
    hostWrite (0x2000 + 4 * k) 4 v s = .next (respond false 0 (tick s)) := by rw [hostWrite, targetOf_pcm4 h]

/-- A valid entry is the stored one (20_memory.md R153). -/
theorem pcmEntry_valid {s : State} {k : Nat} (hv : s.pcmValid = true)
    (hk : k < s.pcmLength.toNat * s.pcmChannels.toNat) : pcmEntry s k = s.pcmMem.toList.getD k 0 :=
  if_pos (by simp [hv, hk])

/-- Any other entry is the free value (70_reset_and_hazards.md R761). -/
theorem pcmEntry_invalid {s : State} {k : Nat}
    (h : s.pcmValid = false ∨ s.pcmLength.toNat * s.pcmChannels.toNat ≤ k) : pcmEntry s k = Config.freePcm s.epoch k :=
  if_neg (by simpa [or_iff_not_imp_left] using h)

/-! ## What no read changes, and what a write can change -/

/-- No register's value depends on the bus's last answer. -/
@[simp] theorem readReg_respond (e : Bool) (d : Word) (s : State) (r : Reg) :
    readReg (respond e d s) r = readReg s r := by cases r <;> rfl

/-- A read does not depend on the bus's last answer, which it replaces (20_memory.md R160). -/
@[simp] theorem hostRead_respond (off len : Nat) (e : Bool) (d : Word) (s : State) :
    hostRead off len (respond e d s) = hostRead off len s := by
  unfold hostRead
  cases targetOf off len with
  | reg r =>
    simp only [readReg_respond]
    rfl
  | _ => rfl

/-- A read inside the window changes the answer on the bus alone (20_memory.md R160). -/
theorem hostRead_answers {off : Nat} (len : Nat) (s : State) (h : off < 0x4000) :
    ∃ e d, hostRead off len s = .next (respond e d s) := by
  unfold hostRead
  cases ht : targetOf off len with
  | outside => exact absurd ht (targetOf_inside h)
  | _ => exact ⟨_, _, rfl⟩

/-- A write is a register's, or answers and changes nothing, or lies outside the window (20_memory.md R151 to R158). -/
theorem hostWrite_cases (off len : Nat) (v : Word) (s : State) :
    (∃ r : Reg, len = 4 ∧ off = r.offset ∧ hostWrite off len v s = writeReg r v (respond false 0 (tick s))) ∨
    ((∀ r : Reg, ¬ (off = r.offset ∧ len = 4)) ∧ ∃ e, hostWrite off len v s = .next (respond e 0 (tick s))) ∨
    (0x4000 ≤ off ∧ hostWrite off len v s = .fault .outsideWindow) := by
  have notReg (hn : ∀ r, targetOf off len ≠ .reg r) (r : Reg) : ¬ (off = r.offset ∧ len = 4) := by
    rintro ⟨rfl, rfl⟩
    exact hn r (targetOf_offset r)
  cases ht : targetOf off len with
  | reg r =>
    obtain ⟨hlen, hoff⟩ := targetOf_reg ht
    exact .inl ⟨r, hlen, hoff, hostWrite_reg v s ht⟩
  | outside =>
    have hoff : 0x4000 ≤ off := Nat.le_of_not_lt fun h => targetOf_inside h ht
    exact .inr (.inr ⟨hoff, by rw [hostWrite, ht]⟩)
  | _ => exact .inr (.inl ⟨notReg (by simp [ht]), _, by rw [hostWrite, ht]⟩)

/-- Two registers do not share an offset (10_state.md R55). -/
theorem offset_eq_iff {r q : Reg} : r.offset = q.offset ↔ r = q := by
  refine ⟨fun h => ?_, congrArg Reg.offset⟩
  have ht := targetOf_offset r
  rw [h, targetOf_offset, Target.reg.injEq] at ht
  exact ht.symm

/-- A write inside the window, elsewhere than CMD and IN_DATA, changes at most CTRL and DBG_SEL (20_memory.md R160). -/
theorem hostWrite_plain {off len : Nat} (v : Word) (s : State) (h : off < 0x4000)
    (hp : ¬ (len = 4 ∧ (off = 0x008 ∨ off = 0x018))) :
    ∃ e, hostWrite off len v s = .next { respond e 0 (tick s) with
      ctrl := if off = Reg.ctrl.offset ∧ len = 4 then v &&& ctrlMask else s.ctrl
      dbgSel := if off = Reg.dbgSel.offset ∧ len = 4 then v &&& dbgSelMask else s.dbgSel } := by
  rcases hostWrite_cases off len v s with ⟨r, rfl, rfl, hw⟩ | ⟨hn, e, hw⟩ | ⟨ho, -⟩
  · have hcmd : r ≠ .cmd := fun hr => hp ⟨rfl, .inl (by rw [hr]; rfl)⟩
    have hin : r ≠ .inData := fun hr => hp ⟨rfl, .inr (by rw [hr]; rfl)⟩
    refine ⟨false, ?_⟩
    rw [hw, writeReg_plain v _ hcmd hin]
    simp [offset_eq_iff]
  · refine ⟨e, ?_⟩
    rw [hw, if_neg (hn .ctrl), if_neg (hn .dbgSel)]
    rfl
  · omega

/-! ## What moves `epoch` on -/

/-- No command moves `epoch`. -/
theorem exec_epoch {i : Instr} {s t : State} (h : exec i s = .next t) : t.epoch = s.epoch := by
  rw [exec_eq_issue, Host.Outcome.next.injEq] at h
  subst h
  rcases issue_cases i (effectOf i) s with ⟨e, -, he⟩ | ⟨-, he⟩ <;> rw [he]
  · rfl
  · by_cases hi : i = .reset
    · rw [hi]
      rfl
    · obtain ⟨-, -, -, -, -, -, -, -, hepoch⟩ := effectOf_keeps s hi
      exact hepoch

theorem writeCmd_epoch {v : Word} {s t : State} (h : writeCmd v s = .next t) : t.epoch = s.epoch := by
  unfold writeCmd at h
  split at h
  · cases h
    rfl
  · exact exec_epoch h

theorem writeInData_epoch (v : Word) (s : State) : (writeInData v s).epoch = s.epoch := by
  rcases writeInData_cases v s with ⟨-, e⟩ | ⟨-, -, e⟩ | ⟨-, -, e⟩ <;> rw [e] <;> rfl

theorem writeReg_epoch {r : Reg} {v : Word} {s t : State} (h : writeReg r v s = .next t) : t.epoch = s.epoch := by
  by_cases hcmd : r = .cmd
  · subst hcmd
    exact writeCmd_epoch h
  by_cases hin : r = .inData
  · subst hin
    cases h
    exact writeInData_epoch v s
  · rw [writeReg_plain v s hcmd hin] at h
    cases h
    rfl

/-- Every host write moves `epoch` on (20_memory.md R160; assumption log 1). -/
theorem hostWrite_epoch {off len : Nat} {v : Word} {s t : State} (h : hostWrite off len v s = .next t) :
    t.epoch = s.epoch + 1 := by
  rcases hostWrite_cases off len v s with ⟨r, -, -, hw⟩ | ⟨-, e, hw⟩ | ⟨-, hw⟩ <;> rw [hw] at h
  · exact writeReg_epoch h
  · cases h
    rfl
  · cases h

/-- Every iteration moves `epoch` on. -/
theorem engineStep_epoch {s : State} (h : decoding s) : (engineStep s).epoch = s.epoch + 1 := by
  rw [engineStep_decoding h]
  obtain ⟨-, -, -, -, -, -, -, -, hepoch⟩ := iteration_keeps (tick s)
  exact hepoch

/-! ## The obligations -/

/-- Settles O11: no read's answer depends on the last one, and a write that is not CMD's or IN_DATA's is plain. -/
theorem accessSideEffects : Obligations.AccessSideEffects := by
  intro s off len v h
  obtain ⟨e, d, hread⟩ := hostRead_answers len s h
  exact ⟨⟨e, d, hread, fun e' d' => (hostRead_respond off len e' d' s).trans hread⟩, hostWrite_plain v s h⟩

/-- Settles O12: each of the accesses of R158 has the bus error as its target. -/
theorem busErrorsChangeNothing : Obligations.BusErrorsChangeNothing := by
  intro s off len v h
  have ht : targetOf off len = .busError := by
    rcases h with ⟨hoff, hs⟩ | ⟨hlo, hhi, hs⟩ | ⟨hoff, hm⟩
    · exact targetOf_register_busError hoff hs
    · exact targetOf_pcm_busError ⟨hlo, hhi⟩ hs
    · exact targetOf_misaligned hoff (misaligned_iff.2 hm)
  exact ⟨hostRead_busError s ht, hostWrite_busError v s ht⟩

/-- Settles O13: nothing is behind the unlisted register offsets, the gap and the tail. -/
theorem unmappedOffsetsReadZero : Obligations.UnmappedOffsetsReadZero := by
  intro s off len v h
  have ht : targetOf off len = .unmapped := by
    rcases h with ⟨rfl, ha, hoff⟩ | ⟨rfl, ha, hoff⟩
    · by_cases hr : off < 0x1000
      · exact targetOf_unlisted (by omega) ha
      · exact targetOf_gap (by omega) (.inr ⟨rfl, ha⟩)
    · exact targetOf_gap hoff (.inl ⟨rfl, ha⟩)
  exact ⟨hostRead_unmapped s ht, hostWrite_unmapped v s ht⟩

/-- Settles O14: the two halves of a 4-byte read are the entries that the 2-byte reads at its offset and 2 above
answer. -/
theorem pcmWindow : Obligations.PcmWindow := by
  intro s k v
  refine ⟨fun hk hv hlt => ?valid, hostRead_pcm2 s, fun hk => ⟨pcmEntry s (2 * k), pcmEntry s (2 * k + 1), ?low, ?high,
    hostRead_pcm4 s hk⟩, hostWrite_pcm2 v s, hostWrite_pcm4 v s⟩
  case valid => rw [hostRead_pcm2 s hk, pcmEntry_valid hv hlt]
  case low => rw [show 0x2000 + 4 * k = 0x2000 + 2 * (2 * k) by omega, hostRead_pcm2 s (by omega)]
  case high => rw [show 0x2000 + 4 * k + 2 = 0x2000 + 2 * (2 * k + 1) by omega, hostRead_pcm2 s (by omega)]

/-- Settles O15: an entry that is not valid is the free value, and iterations and host writes move `epoch` on. -/
theorem invalidPcmIsUnspecified : Obligations.InvalidPcmIsUnspecified := by
  refine ⟨fun s k m hk h => ?_, fun s => engineStep_epoch, fun s t off len v => hostWrite_epoch⟩
  rw [hostRead_pcm2 _ hk, pcmEntry_invalid (s := { s with pcmMem := m }) h]

end Sys2Proof.Machine
end

section
/-! PROOF. Command words and header words carry their fields' bits (O1 to O4). -/

namespace Sys2Proof.Machine

/-! ## Command words -/

/-- A command has one legal set of fields (30_encoding.md R201, R202). -/
theorem fields_of_instrOfFields {f : CommandFields} {i : Instr} (hmbz : f.mbz = 0#23)
    (hflag : f.f0 = 0#1 ∨ f.op = 5#8) (h : instrOfFields f = some i) : f = i.fields := by
  obtain ⟨op, f0, mbz⟩ := f
  have bit : ∀ b : BitVec 1, b = 0#1 ∨ b = 1#1 := by decide
  rcases bit f0 with rfl | rfl
  · simp only [instrOfFields, show ¬ 0#1 = 1#1 by decide, if_false] at h
    split_ifs at h <;> cases h <;> subst_vars <;> rfl
  · obtain rfl : op = 5#8 := hflag.resolve_left (by simp)
    obtain rfl : .refillDoneErr = i := Option.some.inj h
    exact congrArg (CommandFields.mk _ _) hmbz

/-- A word decodes to a command exactly when it is the command's own word (30_encoding.md R202). -/
theorem decode_eq_ok_iff {w : Word} {i : Instr} : decode w = .ok i ↔ w = encode i := by
  constructor
  · intro h
    obtain ⟨hmbz, hflag, hinstr⟩ := decode_ok h
    rw [encode, ← fields_of_instrOfFields hmbz hflag hinstr, commandWord_commandFields]
  · rintro rfl
    exact decode_encode i

/-- The opcodes of no command (30_encoding.md R201). -/
theorem instrOfFields_eq_none {f : CommandFields} : instrOfFields f = none ↔ 7 ≤ f.op.toNat := by
  obtain ⟨op, f0, mbz⟩ := f
  simp only [instrOfFields, ← BitVec.toNat_inj, BitVec.toNat_ofNat, Nat.reducePow, Nat.reduceMod]
  split_ifs <;> simp <;> omega

/-- Which words the decoder refuses, in its checks (30_encoding.md R203). -/
theorem decode_error_iff {w : Word} : (∃ r, decode w = .error r) ↔
    (commandFields w).mbzZero = false ∨ (commandFields w).flagAllowed = false ∨
      instrOfFields (commandFields w) = none := by
  rw [decode]
  split_ifs with hmbz hflag
  · simp [hmbz]
  · simp [hflag]
  · cases hi : instrOfFields (commandFields w) <;> simp [hmbz, hflag]

/-- A stray READ_ERROR bit is one that is set beside another opcode (30_encoding.md R203). -/
theorem CommandFields.flagAllowed_eq_false_iff (f : CommandFields) :
    f.flagAllowed = false ↔ f.f0 ≠ 0#1 ∧ f.op ≠ 0x05#8 := by
  simp [CommandFields.flagAllowed]

/-- The decoder refuses the words of 30_encoding.md R203 and no others. -/
theorem illegalWord_iff (w : Word) : illegalWord w ↔ ∃ r, decode w = .error r := by
  have hmbz : (commandFields w).mbzZero = false ↔ w.extractLsb' 9 23 ≠ 0 := decide_eq_false_iff_not
  have hflag : (commandFields w).flagAllowed = false ↔ w.getLsbD 8 = true ∧ w.extractLsb' 0 8 ≠ 0x05#8 := by
    have bit : ∀ b : BitVec 1, b ≠ 0#1 ↔ b = 1#1 := by decide
    rw [CommandFields.flagAllowed_eq_false_iff, BitVec.getLsbD_eq_extractLsb', beq_iff_eq, ← bit]
    rfl
  rw [decode_error_iff, hmbz, hflag, instrOfFields_eq_none, illegalWord]
  show _ ↔ _ ∨ _ ∨ 7 ≤ (w.extractLsb' 0 8).toNat
  tauto

/-- A refused word written to CMD raises ILLEGAL_CMD (30_encoding.md R203). -/
theorem hostWrite_cmd_illegal {w : Word} {r : IllegalWord} (s : State) (h : decode w = .error r) :
    hostWrite 0x008 4 w s = .next { respond false 0 (tick s) with err := .illegalCmd } := by
  rw [hostWrite_reg w s targetOf_cmd]
  show writeCmd w _ = _
  rw [writeCmd, h]
  rfl

/-! ## Header words -/

/-- Each field of a word stands right above the next one, and together they are the word. -/
theorem wordOfHeader_headerOfWord (H : Word) : wordOfHeader (headerOfWord H) = H := by
  simp (disch := omega) only [wordOfHeader, headerOfWord, BitVec.extractLsb'_append_extractLsb'_eq_extractLsb']
  exact BitVec.extractLsb'_eq_self

/-- Each field stands in the word where the fields below it end. -/
theorem headerOfWord_wordOfHeader (h : Header) : headerOfWord (wordOfHeader h) = h := by
  simp (disch := omega) only [wordOfHeader, headerOfWord, BitVec.extractLsb'_append_eq_of_add_le,
    BitVec.extractLsb'_append_eq_of_le, Nat.reduceSub, BitVec.extractLsb'_eq_self]

/-! ## The obligations -/

/-- Settles O1: the eight words, decoded. -/
theorem sampleWordsDecode : Obligations.SampleWordsDecode := by
  unfold Obligations.SampleWordsDecode
  decide

/-- Settles O2: the fields of a word that decodes are the command's own, and the fields are the word. -/
theorem commandWordsAreExact : Obligations.CommandWordsAreExact :=
  ⟨fun _ _ => decode_eq_ok_iff, by decide⟩

/-- Settles O3: R203's conditions are the decoder's three checks, and a refused word raises ILLEGAL_CMD. -/
theorem illegalWordsSetErrOnly : Obligations.IllegalWordsSetErrOnly := by
  intro w s
  refine ⟨illegalWord_iff w, fun h => ?_⟩
  obtain ⟨r, hr⟩ := (illegalWord_iff w).1 h
  exact hostWrite_cmd_illegal s hr

/-- Settles O4: both ways the fields are adjacent slices of the word. Of the fields only `sync` spans two bytes. -/
theorem headerFieldsAndWordAgree : Obligations.HeaderFieldsAndWordAgree := by
  refine ⟨wordOfHeader_headerOfWord, headerOfWord_wordOfHeader, fun b0 b1 b2 b3 => ?_⟩
  have sync : (b0 ++ b1).extractLsb' 4 12 = b0 ++ b1.extractLsb' 4 4 := by
    rw [BitVec.extractLsb'_append_eq_ite]
    simp
  simp (disch := omega) only [wordOfBytes, headerOfWord, BitVec.extractLsb'_append_eq_of_add_le,
    BitVec.extractLsb'_append_eq_of_le, Nat.reduceSub, sync, and_true]

end Sys2Proof.Machine
end

section
/-! PROOF. The side information reads back every value that its fields can hold (O5). -/

namespace Sys2Proof.Machine

/-! ## Reading numbers at the cursor -/

/-- `natBits` lays out the low bits of a number. -/
theorem natBits_mod_two_pow {n m : Nat} (v : Nat) (h : n ≤ m) : natBits n (v % 2 ^ m) = natBits n v := by
  induction n with
  | zero => rfl
  | succ n ih => rw [natBits, natBits, ih (by omega), Nat.testBit_mod_two_pow, decide_eq_true (by omega), Bool.true_and]

/-- `getbits(n)` reads the low `n` bits of any number whose bits stand at the cursor. -/
theorem Cursor.getBits_natBits_mod (n v p : Nat) (rest : List Bool) :
    Cursor.getBits n ⟨p, natBits n v ++ rest⟩ = (v % 2 ^ n, ⟨p + n, rest⟩) := by
  rw [← natBits_mod_two_pow v le_rfl]
  exact Cursor.getBits_natBits n _ p rest (Nat.mod_lt _ (by positivity))

/-! ## One granule/channel block -/

/-- A block is 59 bits in both layouts (30_encoding.md R219). -/
@[simp] theorem length_granuleBits (g : GranuleInfo) : (granuleBits g).length = 59 := by
  cases hw : g.windowSwitching <;> simp [granuleBits, hw]

/-- The parse of a block gives back every value that the block can carry. -/
theorem parseGranule_granuleBits {g : GranuleInfo} (p : Nat) (rest : List Bool) (h : granuleFits g = true) :
    parseGranule ⟨p, granuleBits g ++ rest⟩ = (g, ⟨p + 59, rest⟩) := by
  obtain ⟨part23Length, bigValues, globalGain, scalefacCompress, windowSwitching, blockType, mixedBlock, tableSelect0,
    tableSelect1, tableSelect2, subblockGain0, subblockGain1, subblockGain2, region0Count, region1Count, preflag,
    scalefacScale, count1Table⟩ := g
  simp only [granuleFits, Bool.and_eq_true, decide_eq_true_eq] at h
  obtain ⟨widths, absent⟩ := h
  cases windowSwitching with
  | true =>
    simp only [if_true, Bool.and_eq_true, decide_eq_true_eq] at absent
    obtain ⟨⟨rfl, rfl⟩, rfl⟩ := absent
    simp (disch := omega) only [parseGranule, granuleBits, if_true, List.append_assoc, List.cons_append, List.nil_append,
      Cursor.getBits_natBits, Cursor.getFlag_eq, Cursor.next_cons]
  | false =>
    simp only [Bool.false_eq_true, if_false, Bool.and_eq_true, decide_eq_true_eq] at absent
    obtain ⟨⟨⟨⟨rfl, rfl⟩, rfl⟩, rfl⟩, rfl⟩ := absent
    simp (disch := omega) only [parseGranule, granuleBits, Bool.false_eq_true, if_false, List.append_assoc,
      List.cons_append, List.nil_append, Cursor.getBits_natBits, Cursor.getFlag_eq, Cursor.next_cons]

/-! ## The frame's side information -/

/-- Side information is 17 bytes for one channel and 32 for two (30_encoding.md R217, R218). -/
theorem length_sideInfoBits {nch : Nat} (ignored : Nat) (x : SideInfo) (h : nch = 1 ∨ nch = 2) :
    (sideInfoBits nch ignored x).length = if nch = 1 then 136 else 256 := by
  rcases h with rfl | rfl <;> simp [sideInfoBits]

/-- One channel: the ignored bits are five, and channel 1 is zero (30_encoding.md R217). -/
theorem parseSideInfo_one {ignored p : Nat} {x : SideInfo} {rest : List Bool} (h : sideInfoFits 1 x = true) :
    parseSideInfo 1 ⟨p, sideInfoBits 1 ignored x ++ rest⟩ = x := by
  obtain ⟨mainDataBegin, scfsi0, scfsi1, g0c0, g0c1, g1c0, g1c1⟩ := x
  simp only [sideInfoFits, ne_eq, not_true, decide_false, Bool.false_or, Bool.and_eq_true, decide_eq_true_eq] at h
  obtain ⟨⟨⟨⟨⟨⟨⟨hmain, h0⟩, -⟩, fits00⟩, -⟩, fits10⟩, -⟩, ⟨rfl, rfl⟩, rfl⟩ := h
  simp (disch := omega) only [parseSideInfo, sideInfoBits, if_true, List.append_assoc, Cursor.getBits_natBits_mod 5,
    Cursor.getBits_natBits, parseGranule_granuleBits _ _ fits00, parseGranule_granuleBits _ _ fits10]

/-- Two channels: the ignored bits are three (30_encoding.md R218). -/
theorem parseSideInfo_two {ignored p : Nat} {x : SideInfo} {rest : List Bool} (h : sideInfoFits 2 x = true) :
    parseSideInfo 2 ⟨p, sideInfoBits 2 ignored x ++ rest⟩ = x := by
  obtain ⟨mainDataBegin, scfsi0, scfsi1, g0c0, g0c1, g1c0, g1c1⟩ := x
  simp only [sideInfoFits, Bool.and_eq_true, decide_eq_true_eq] at h
  obtain ⟨⟨⟨⟨⟨⟨⟨hmain, h0⟩, h1⟩, fits00⟩, fits01⟩, fits10⟩, fits11⟩, -⟩ := h
  simp (disch := omega) only [parseSideInfo, sideInfoBits, OfNat.ofNat_ne_one, if_false, List.append_assoc,
    Cursor.getBits_natBits_mod 3, Cursor.getBits_natBits, parseGranule_granuleBits _ _ fits00,
    parseGranule_granuleBits _ _ fits01, parseGranule_granuleBits _ _ fits10, parseGranule_granuleBits _ _ fits11]

/-! ## The obligation -/

/-- Settles O5: each layout's parse takes its fields off the front of its bits one by one. -/
theorem sideInfoRoundTrip : Obligations.SideInfoRoundTrip := by
  intro nch ignored p x rest hn h
  refine ⟨length_sideInfoBits ignored x hn, ?_⟩
  rcases hn with rfl | rfl
  · exact parseSideInfo_one h
  · exact parseSideInfo_two h

end Sys2Proof.Machine
end

section
/-! PROOF. Huffman codewords read back their values (O6, O7). -/

namespace Sys2Proof.Machine

/-! ## Code sets in which no codeword begins another -/

/-- A codeword begins no codeword but its own (43_huffman.md R452). -/
def PrefixFree (codes : List Code) : Prop := ∀ k ∈ codes, ∀ j ∈ codes, k.bits <+: j.bits → k = j

theorem prefixFree_of_noneBeginsAnother {codes : List Code} (h : noneBeginsAnother codes = true) :
    PrefixFree codes := by
  induction codes with
  | nil => exact fun k hk => absurd hk List.not_mem_nil
  | cons a codes ih =>
    simp only [noneBeginsAnother, Bool.and_eq_true, List.all_eq_true, Bool.not_eq_true',
      ← Bool.not_eq_true, List.isPrefixOf_iff_prefix] at h
    obtain ⟨apart, tail⟩ := h
    intro k hk j hj hkj
    rcases List.mem_cons.1 hk with rfl | hkTail <;> rcases List.mem_cons.1 hj with rfl | hjTail
    · rfl
    · exact absurd hkj (apart j hjTail).1
    · exact absurd hkj (apart k hkTail).2
    · exact ih tail k hkTail j hjTail hkj

/-- A number is read back from its bits, so its bits determine it. -/
theorem natBits_injective {n a b : Nat} (ha : a < 2 ^ n) (hb : b < 2 ^ n) (h : natBits n a = natBits n b) : a = b := by
  have hr := Cursor.getBits_natBits n a 0 [] ha
  rw [h, Cursor.getBits_natBits n b 0 [] hb] at hr
  exact (Prod.mk.inj hr).1.symm

theorem plainCodes_prefixFree {dim : Nat} (h : dim ≤ 16) : PrefixFree (plainCodes dim) := by
  intro k hk j hj hkj
  simp only [plainCodes, List.mem_map, List.mem_range] at hk hj
  obtain ⟨a, ha, rfl⟩ := hk
  obtain ⟨b, hb, rfl⟩ := hj
  have hdim : dim * dim ≤ 16 * 16 := Nat.mul_le_mul h h
  rw [natBits_injective (by omega) (by omega) (hkj.eq_of_length (by simp))]

theorem codeSetDim_bounds (n : Nat) : 2 ≤ codeSetDim n ∧ codeSetDim n ≤ 16 := by
  unfold codeSetDim
  split_ifs <;> decide

/-- The three shapes of a code set that is not empty (43_huffman.md R452). -/
theorem codeSet_cases {n : Nat} (h : n ≠ 0) :
    (n = 1 ∧ codeSet n = codesH1) ∨ codeSetValid (codeSetDim n) (codeSet n) = true ∨
      codeSet n = plainCodes (codeSetDim n) := by
  rw [codeSet, if_neg h]
  split_ifs with h1 hv
  · exact .inl ⟨h1, rfl⟩
  · exact .inr (.inl hv)
  · exact .inr (.inr rfl)

theorem codeSet_prefixFree {n : Nat} (h : n ≠ 0) : PrefixFree (codeSet n) := by
  rcases codeSet_cases h with ⟨-, he⟩ | hv | he
  · rw [he]
    exact prefixFree_of_noneBeginsAnother (by decide)
  · rw [codeSetValid, Bool.and_eq_true] at hv
    exact prefixFree_of_noneBeginsAnother hv.2
  · rw [he]
    exact plainCodes_prefixFree (codeSetDim_bounds n).2

/-- Every code set has a codeword for each pair of 0..dim-1 (43_huffman.md R452). -/
theorem codeSet_pair {n x y : Nat} (h : n ≠ 0) (hx : x < codeSetDim n) (hy : y < codeSetDim n) :
    ∃ k ∈ codeSet n, k.x = x ∧ k.y = y := by
  have hdiv : (x * codeSetDim n + y) / codeSetDim n = x := by
    rw [Nat.mul_comm, Nat.mul_add_div (by omega), Nat.div_eq_of_lt hy, Nat.add_zero]
  have hmod : (x * codeSetDim n + y) % codeSetDim n = y := by
    rw [Nat.mul_comm, Nat.mul_add_mod, Nat.mod_eq_of_lt hy]
  have hnumber : x * codeSetDim n + y < codeSetDim n * codeSetDim n := by nlinarith
  rcases codeSet_cases h with ⟨rfl, he⟩ | hv | he
  · have hall : ∀ x < 2, ∀ y < 2, ∃ k ∈ codesH1, k.x = x ∧ k.y = y := by decide
    rw [he]
    exact hall x hx y hy
  · simp only [codeSetValid, Bool.and_eq_true, List.all_eq_true, List.any_eq_true, decide_eq_true_eq,
      List.mem_range] at hv
    obtain ⟨⟨-, every⟩, -⟩ := hv
    obtain ⟨k, hk, hkx, hky⟩ := every _ hnumber
    exact ⟨k, hk, hkx.trans hdiv, hky.trans hmod⟩
  · rw [he]
    exact ⟨_, List.mem_map_of_mem (List.mem_range.2 hnumber), hdiv, hmod⟩

/-- An empty codeword would begin every other one, and a code set has more than one. -/
theorem codeSet_bits_ne_nil {n : Nat} {k : Code} (h : n ≠ 0) (hk : k ∈ codeSet n) : k.bits ≠ [] := by
  intro hnil
  have only (j : Code) (hj : j ∈ codeSet n) : k = j := codeSet_prefixFree h k hk j hj (hnil ▸ List.nil_prefix)
  obtain ⟨hdim, -⟩ := codeSetDim_bounds n
  obtain ⟨j0, h0, -, hy0⟩ := codeSet_pair h (x := 0) (y := 0) (by omega) (by omega)
  obtain ⟨j1, h1, -, hy1⟩ := codeSet_pair h (x := 0) (y := 1) (by omega) (by omega)
  rw [← only j0 h0] at hy0
  rw [← only j1 h1] at hy1
  omega

/-- The match at the cursor of a codeword's bits is that codeword (30_encoding.md R225). -/
theorem matchCode_bits {codes : List Code} {k : Code} (p : Nat) (rest : List Bool) (free : PrefixFree codes)
    (hk : k ∈ codes) (hne : k.bits ≠ []) :
    matchCode codes (longestCode codes) [] ⟨p, k.bits ++ rest⟩ = some (k, ⟨p + k.bits.length, rest⟩) :=
  matchCode_codeword free hk rest [] k.bits _ p rfl hne (length_le_longestCode hk)

/-! ## Signs and escapes -/

/-- A magnitude with the sign that follows it, no sign following 0 (30_encoding.md R223, R224). -/
def signedRead (m : Nat) (c : Cursor) : Int × Cursor :=
  if m = 0 then (0, c) else if c.next.1 then (-(m : Int), c.next.2) else ((m : Int), c.next.2)

/-- The sign bit turns the magnitude back into the value. -/
theorem signedRead_signBits (x : Int) (p : Nat) (rest : List Bool) :
    signedRead x.natAbs ⟨p, signBits x ++ rest⟩ = (x, ⟨p + (signBits x).length, rest⟩) := by
  rcases lt_trichotomy x 0 with hx | rfl | hx
  · have hbits : signBits x = [true] := by simp [signBits, hx, hx.ne]
    simp [signedRead, hbits, hx.ne, abs_of_neg hx]
  · rfl
  · have hbits : signBits x = [false] := by simp [signBits, hx.le, hx.ne']
    simp [signedRead, hbits, hx.ne', abs_of_pos hx]

theorem pairValue_escape {lb v : Nat} (c : Cursor) (h : 0 < lb ∧ v = 15) :
    pairValue lb v c = signedRead (15 + (c.getBits lb).1) (c.getBits lb).2 := by
  simp only [pairValue, if_pos h, signedRead]

theorem pairValue_plain {lb v : Nat} (c : Cursor) (h : ¬ (0 < lb ∧ v = 15)) : pairValue lb v c = signedRead v c := by
  simp only [pairValue, if_neg h, signedRead]

theorem quadValue_eq_signedRead (b : Bool) (c : Cursor) : quadValue b c = signedRead b.toNat c := by
  cases b
  · rfl
  · cases h : c.next.1 <;> simp [quadValue, signedRead, h]

/-- A value of a pair is read back from what follows its codeword (43_huffman.md R458). -/
theorem pairValue_valueBits {lb v : Nat} {x : Int} (p : Nat) (rest : List Bool) (h : valueFits lb v x = true) :
    pairValue lb v ⟨p, valueBits lb v x ++ rest⟩ = (x, ⟨p + (valueBits lb v x).length, rest⟩) := by
  by_cases escape : 0 < lb ∧ v = 15
  · simp only [valueFits, if_pos escape, Bool.and_eq_true, decide_eq_true_eq] at h
    rw [pairValue_escape _ escape, valueBits, if_pos escape, List.append_assoc,
      Cursor.getBits_natBits lb _ p _ (by omega), Nat.add_sub_cancel' h.1, signedRead_signBits, List.length_append,
      length_natBits, Nat.add_assoc]
  · simp only [valueFits, if_neg escape, decide_eq_true_eq] at h
    rw [pairValue_plain _ escape, valueBits, if_neg escape, List.nil_append, ← h, signedRead_signBits]

/-- The bit that `q` holds for a value (43_huffman.md R455). -/
theorem min_natAbs_one (x : Int) : min x.natAbs 1 = (decide (x ≠ 0)).toNat := by
  by_cases hx : x = 0
  · simp [hx]
  · simp only [ne_eq, hx, not_false_eq_true, decide_true, Bool.toNat_true]
    omega

/-- A value of a quadruple is read back from its sign (43_huffman.md R461). -/
theorem quadValue_signBits {x : Int} (p : Nat) (rest : List Bool) (h : x.natAbs ≤ 1) :
    quadValue (decide (x ≠ 0)) ⟨p, signBits x ++ rest⟩ = (x, ⟨p + (signBits x).length, rest⟩) := by
  rw [quadValue_eq_signedRead, ← min_natAbs_one, min_eq_left h, signedRead_signBits]

/-! ## The count1 tables -/

theorem quadTable_prefixFree (sel : Bool) : PrefixFree (quadTable sel) := by
  cases sel <;> exact prefixFree_of_noneBeginsAnother (by decide)

/-- Every `q` below 16 has a codeword in both tables, and none is empty (43_huffman.md R455). -/
theorem quadTable_codeword (sel : Bool) {q : Nat} (hq : q < 16) :
    ∃ k ∈ quadTable sel, k.x = q ∧ k.bits ≠ [] ∧ quadCode sel q = k.bits := by
  have found : ∀ sel : Bool, ∀ q < 16, ((quadTable sel).find? (fun k => k.x = q)).isSome = true := by decide
  have nonempty : ∀ sel : Bool, ∀ k ∈ quadTable sel, k.bits ≠ [] := by decide
  obtain ⟨k, hk⟩ := Option.isSome_iff_exists.1 (found sel q hq)
  have hmem := List.mem_of_find?_eq_some hk
  have hkq := List.find?_some hk
  exact ⟨k, hmem, of_decide_eq_true hkq, nonempty sel k hmem, by rw [quadCode, hk, Option.getD_some]⟩

/-- Every bit string of length `n` after `got` reaches a codeword. -/
def reachesCodeword (codes : List Code) : Nat → List Bool → Bool
  | 0, _       => false
  | n + 1, got => [false, true].all fun b =>
      codes.any (fun k => k.bits == got ++ [b]) || reachesCodeword codes n (got ++ [b])

theorem matchCode_isSome {codes : List Code} {n : Nat} {got : List Bool} (c : Cursor)
    (h : reachesCodeword codes n got = true) : (matchCode codes n got c).isSome = true := by
  induction n generalizing got c with
  | zero => exact absurd h Bool.false_ne_true
  | succ n ih =>
    have hb : codes.any (fun k => k.bits == got ++ [c.next.1]) = true ∨
        reachesCodeword codes n (got ++ [c.next.1]) = true := by
      rw [reachesCodeword, List.all_eq_true] at h
      exact Bool.or_eq_true_iff.1 (h c.next.1 (by cases c.next.1 <;> simp))
    unfold matchCode
    cases hf : codes.find? (fun k => k.bits == got ++ [c.next.1]) with
    | some k => rfl
    | none =>
      rw [List.find?_eq_none] at hf
      refine ih _ (hb.resolve_left fun ha => ?_)
      obtain ⟨k, hk, hkb⟩ := List.any_eq_true.1 ha
      exact hf k hk hkb

/-- Some codeword of either table matches whatever the bits (43_huffman.md R461). -/
theorem matchCode_quadTable_isSome (sel : Bool) (c : Cursor) :
    (matchCode (quadTable sel) (longestCode (quadTable sel)) [] c).isSome = true :=
  matchCode_isSome c (by cases sel <;> decide)

theorem quadNumber_eq (v w x y : Int) : quadNumber v w x y =
    8 * (decide (v ≠ 0)).toNat + 4 * (decide (w ≠ 0)).toNat + 2 * (decide (x ≠ 0)).toNat + (decide (y ≠ 0)).toNat := by
  simp only [quadNumber, min_natAbs_one]

/-- `q` is below 16 and its bits tell which values are nonzero (43_huffman.md R455). -/
theorem quadNumber_bits (v w x y : Int) : quadNumber v w x y < 16 ∧
    (quadNumber v w x y).testBit 3 = decide (v ≠ 0) ∧ (quadNumber v w x y).testBit 2 = decide (w ≠ 0) ∧
    (quadNumber v w x y).testBit 1 = decide (x ≠ 0) ∧ (quadNumber v w x y).testBit 0 = decide (y ≠ 0) := by
  have bits : ∀ a b c d : Bool, let q := 8 * a.toNat + 4 * b.toNat + 2 * c.toNat + d.toNat
      q < 16 ∧ q.testBit 3 = a ∧ q.testBit 2 = b ∧ q.testBit 1 = c ∧ q.testBit 0 = d := by decide
  rw [quadNumber_eq]
  exact bits _ _ _ _

theorem decodeQuad_quadBits (sel : Bool) (p : Nat) {v w x y : Int} (rest : List Bool) (hv : v.natAbs ≤ 1)
    (hw : w.natAbs ≤ 1) (hx : x.natAbs ≤ 1) (hy : y.natAbs ≤ 1) : decodeQuad sel ⟨p, quadBits sel v w x y ++ rest⟩ =
      ([v, w, x, y], ⟨p + (quadBits sel v w x y).length, rest⟩) := by
  obtain ⟨hq, bit3, bit2, bit1, bit0⟩ := quadNumber_bits v w x y
  obtain ⟨k, hk, hkq, hne, hcode⟩ := quadTable_codeword sel hq
  simp only [decodeQuad, quadBits, hcode, List.append_assoc, matchCode_bits _ _ (quadTable_prefixFree sel) hk hne,
    Option.getD_some, hkq, bit3, bit2, bit1, bit0, quadValue_signBits _ _ hv, quadValue_signBits _ _ hw,
    quadValue_signBits _ _ hx, quadValue_signBits _ _ hy, List.length_append, Nat.add_assoc]

/-! ## The obligations -/

/-- Settles O6: no codeword begins another, so the pair's own is matched, and each value is read from what follows. -/
theorem huffmanPairRoundTrip : Obligations.HuffmanPairRoundTrip := by
  intro t p k x y rest h0 _ _ hk hx hy
  have hn : codeSetNumber t ≠ 0 := fun h => by simp [h, codeSet] at hk
  simp only [decodePair, pairBits, List.append_assoc, if_neg h0.ne',
    matchCode_bits _ _ (codeSet_prefixFree hn) hk (codeSet_bits_ne_nil hn hk), pairValue_valueBits _ _ hx,
    pairValue_valueBits _ _ hy, List.length_append, Nat.add_assoc]

/-- Settles O7: the bits of `q` tell which signs follow, and every bit string of the greatest length reaches a
codeword. -/
theorem huffmanQuadRoundTrip : Obligations.HuffmanQuadRoundTrip :=
  ⟨fun sel p v w x y rest hv hw hx hy => decodeQuad_quadBits sel p rest hv hw hx hy, matchCode_quadTable_isSome,
    by decide, by decide⟩

end Sys2Proof.Machine
end

section
/-! PROOF. What the bitstream reader asks for, stages, consumes and keeps (O16, O30, O41, O45). -/

namespace Sys2Proof.Machine

/-! ## IN_DATA writes, one equation for each case (40_bitstream_reader.md R304) -/

theorem writeInData_outside {v : Word} {s : State} (h : s.engine ≠ .needData) :
    writeInData v s = raiseHostError .protocol s := if_pos h

theorem writeInData_full {v : Word} {s : State} (h : s.engine = .needData) (hc : s.refillCount = s.refillMax) :
    writeInData v s = raiseHostError .overflow s := by
  rw [writeInData, if_neg (not_not.2 h), if_pos hc]

theorem writeInData_staged {v : Word} {s : State} (h : s.engine = .needData) (hc : s.refillCount ≠ s.refillMax) :
    writeInData v s = { s with
      ibuf := s.ibuf.write (s.avail + s.refillCount) (inDataByte v), refillCount := s.refillCount + 1 } := by
  rw [writeInData, if_neg (not_not.2 h), if_neg hc]

/-! ## Refill requests -/

theorem ensure_iff {s : State} {n : Nat} : ensure s n = true ↔ n ≤ s.avail - s.pos := decide_eq_true_iff

theorem not_ensure_iff {s : State} {n : Nat} : ensure s n = false ↔ s.avail - s.pos < n :=
  decide_eq_false_iff_not.trans Nat.not_le

theorem iteration_refill {s : State} (h : headerStage s = .bufferExhausted) : iteration s = refillRequest s := by
  simp only [iteration, h]

/-- A refill is asked for with less than the longest frame left (40_bitstream_reader.md R300; 41_frame_header.md
R356). -/
theorem headerStage_exhausted_lt {s : State} (h : headerStage s = .bufferExhausted) : s.avail - s.pos < 1441 := by
  obtain ⟨-, hshort | ⟨hshort, hv, hf⟩⟩ := headerStage_exhausted h <;> rw [not_ensure_iff] at hshort
  · omega
  · have hlen := (frameLength_bounds hv hf).2
    omega

/-- So the free space that a refill asks for is at least one byte (40_bitstream_reader.md R303). -/
theorem one_le_refillMax {s : State} (hcap : 1441 ≤ s.ibufCap) (h : headerStage s = .bufferExhausted) :
    1 ≤ s.ibufCap - (s.avail - s.pos) := by
  have hlt := headerStage_exhausted_lt h
  omega

/-- Once end of file was seen no iteration asks for input (40_bitstream_reader.md R306). -/
theorem iteration_eof_engine {s : State} (hb : s.engine = .busy) (h : s.eof = true) :
    (iteration s).engine ≠ .needData := by
  rcases iteration_cases s with ⟨hs, -⟩ | ⟨-, e⟩ | ⟨-, e⟩ | ⟨H, c, -, -, e⟩ | ⟨H, f, -, -, e⟩
  · obtain ⟨heof, -⟩ := headerStage_exhausted hs
    simp [h] at heof
  all_goals rw [e]; simp [hb]

/-! ## The unconsumed input -/

theorem unread_eq {s t : State} (hi : t.ibuf = s.ibuf) (hp : t.pos = s.pos) (ha : t.avail = s.avail) :
    unread t = unread s := by rw [unread, unread, hi, hp, ha]

/-- A cursor that moves over available bytes consumes them, and the rest is what follows. -/
theorem unread_advance {s t : State} {n : Nat} (hi : t.ibuf = s.ibuf) (ha : t.avail = s.avail)
    (hp : t.pos = s.pos + n) (hn : n ≤ s.avail - s.pos) : unread s = s.ibuf.slice s.pos n ++ unread t := by
  rw [unread, unread, hi, ha, hp, ← Mem.slice_append]
  congr 1
  omega

/-- The refill's move keeps the unconsumed input (40_bitstream_reader.md R303). -/
theorem unread_refillRequest (s : State) : unread (refillRequest s) = unread s := by
  refine List.map_congr_left fun i hi => ?_
  have hlt := List.mem_range.1 hi
  simp only [refillRequest_ibuf, refillRequest_pos, refillRequest_avail] at hlt ⊢
  rw [Mem.read_moveDown, if_pos (by omega), Nat.zero_add]

/-- The staged bytes stand right behind the unconsumed ones (40_bitstream_reader.md R305). -/
theorem unread_append_staged {s : State} (h : s.pos ≤ s.avail) :
    unread s ++ staged s = s.ibuf.slice s.pos (s.avail + s.refillCount - s.pos) := by
  rw [Nat.sub_add_comm h, Mem.slice_append, Nat.add_sub_cancel' h]
  rfl

/-- A write above a slice leaves it. -/
theorem slice_write_above (m : Mem) {a n x : Nat} (b : Byte) (h : a + n ≤ x) : (m.write x b).slice a n = m.slice a n :=
  Mem.slice_congr fun _ hx => Mem.read_write_other m b (by omega)

/-- An accepted IN_DATA write stages its byte behind the staged ones (40_bitstream_reader.md R304). -/
theorem staged_writeInData {s : State} (v : Word) (h : s.engine = .needData) (hc : s.refillCount ≠ s.refillMax)
    (hwf : s.ibuf.wf = true) : staged (writeInData v s) = staged s ++ [inDataByte v] := by
  rw [writeInData_staged h hc]
  show Mem.slice (s.ibuf.write (s.avail + s.refillCount) _) s.avail (s.refillCount + 1) = _
  rw [Mem.slice_append, slice_write_above _ _ le_rfl]
  exact congrArg (fun b => staged s ++ [b]) (Mem.read_write_same hwf _ _)

theorem unread_writeInData {s : State} (v : Word) (h : s.engine = .needData) (hc : s.refillCount ≠ s.refillMax)
    (hle : s.pos ≤ s.avail) : unread (writeInData v s) = unread s := by
  have hend : s.pos + (s.avail - s.pos) ≤ s.avail + s.refillCount := by omega
  rw [writeInData_staged h hc]
  exact slice_write_above s.ibuf _ hend

/-- What an iteration consumes: nothing for a refill, one byte for a skip, the frame for a drop or a delivery. -/
theorem iteration_consumes {s : State} (hb : s.engine = .busy) :
    ∃ consumed, unread s = consumed ++ unread (iteration s) ∧
      ((iteration s).engine = .needData → consumed = []) ∧
      ((iteration s).engine = .busy → (iteration s).dropped = s.dropped → consumed.length = 1) := by
  rcases iteration_cases s with ⟨-, e⟩ | ⟨-, e⟩ | ⟨hs, e⟩ | ⟨H, c, hs, -, e⟩ | ⟨H, f, hs, -, e⟩ <;> rw [e]
  · exact ⟨[], (unread_refillRequest s).symm, fun _ => rfl, by simp⟩
  · exact ⟨[], (unread_eq rfl rfl rfl).symm, fun _ => rfl, by simp⟩
  · have hfour := ensure_iff.1 (headerStage_skip hs)
    exact ⟨_, unread_advance (n := 1) rfl rfl rfl (by omega), by simp [hb], fun _ _ => Mem.length_slice _ _ _⟩
  · obtain ⟨-, -, -, -, -, -, hlen⟩ := headerStage_frame hs
    exact ⟨_, unread_advance rfl rfl rfl (ensure_iff.1 hlen), by simp [hb], by simp⟩
  · obtain ⟨-, -, -, -, -, -, hlen⟩ := headerStage_frame hs
    exact ⟨_, unread_advance rfl rfl rfl (ensure_iff.1 hlen), by simp, by simp⟩

/-! ## What writes end of file -/

/-- No command but RESET, OPEN, CLOSE and the two answers writes end of file (40_bitstream_reader.md R306). -/
theorem effectOf_eof {i : Instr} (s : State)
    (hi : i ∉ [Instr.reset, .openFile, .close, .refillDone, .refillDoneErr]) : (effectOf i s).eof = s.eof := by
  cases i with
  | nop => rfl
  | irqAck => rfl
  | pull =>
    by_cases h : s.session = .exhausted
    · simp [effectOf, pullEffect_exhausted h]
    · simp [effectOf, pullEffect_streaming h]
  | _ => simp at hi

/-- An answer to a refill keeps end of file, and none comes before the answer to an OPEN's fill. -/
theorem effectOf_eof_refill {i : Instr} {s : State} (hi : i = .refillDone ∨ i = .refillDoneErr)
    (hf : s.pending = .opening → s.eof = false) (h : s.eof = true) : (effectOf i s).eof = true := by
  have hp : s.pending ≠ .opening := fun e => by simp [hf e] at h
  rcases hi with rfl | rfl
  · simp [effectOf, refillEffect_pull hp, h]
  · simp [effectOf, refillEffect_pull_err hp]

/-- Of what is neither a command nor a reset nothing writes end of file. -/
theorem PlainMove.eof_eq {b t : State} (h : PlainMove b t) : t.eof = b.eof := by
  rcases h with rfl | rfl | ⟨v, rfl⟩ | rfl | ⟨v, rfl⟩ | ⟨v, rfl⟩
  case inr.inl =>
    rcases engineStep_cases b with ⟨-, -, e⟩ | ⟨-, e⟩ <;> rw [e]
    obtain ⟨-, -, -, heof, -⟩ := iteration_keeps (tick b)
    exact heof
  case inr.inr.inl => rcases writeInData_cases v b with ⟨-, e⟩ | ⟨-, -, e⟩ | ⟨-, -, e⟩ <;> rw [e] <;> rfl
  all_goals rfl

/-- A command that changes end of file was accepted. -/
theorem exec_eof_ne {i : Instr} {s t : State} (h : exec i s = .next t) (hne : t.eof ≠ s.eof) :
    t = effectOf i s := by
  rw [exec_eq_issue, Host.Outcome.next.injEq] at h
  subst h
  rcases issue_cases i (effectOf i) s with ⟨e, -, he⟩ | ⟨-, he⟩
  · rw [he] at hne
    exact absurd rfl hne
  · exact he

/-- A step that changes end of file is a reset or runs one of five commands (40_bitstream_reader.md R306). -/
theorem step_eof_ne {s t : State} (h : step s = .next t) (hne : t.eof ≠ s.eof) :
    (nextIsReset s = true ∧ t.eof = false) ∨
      ∃ i ∈ [Instr.reset, .openFile, .close, .refillDone, .refillDoneErr], nextCommand s = some i ∧
        ∃ b, SameBlock s b ∧ t = effectOf i b := by
  obtain ⟨b, hb, ⟨-, -, hp⟩ | ⟨-, i, hi, hx⟩ | ⟨-, hr, rfl⟩⟩ := step_moves h
  all_goals have heof : b.eof = s.eof := by rw [hb]
  · exact absurd (hp.eof_eq.trans heof) hne
  · rw [← heof] at hne
    have ht := exec_eof_ne hx hne
    refine .inr ⟨i, ?_, hi, b, hb, ht⟩
    by_contra hmem
    exact hne (ht ▸ effectOf_eof b hmem)
  · exact .inl ⟨hr, rfl⟩

/-! ## The obligations -/

/-- Settles O16: the write's effect is that of `writeInData`, whose staged byte reads back and leaves the others. -/
theorem inDataWrite : Obligations.InDataWrite := by
  intro s v hwf
  simp only [hostWrite_inData]
  refine ⟨fun he => congrArg _ (writeInData_outside (s := respond false 0 (tick s)) he),
    fun he hc => congrArg _ (writeInData_full (s := respond false 0 (tick s)) he hc), fun he hc =>
    ⟨s.ibuf.write (s.avail + s.refillCount) (inDataByte v), ?staged, Mem.read_write_same hwf _ _,
      fun a => Mem.read_write_other _ _⟩⟩
  case staged => exact congrArg _ (writeInData_staged (s := respond false 0 (tick s)) he hc)

/-- Settles O30: the refill is the move of `Mem.moveDown`, and what is left is shorter than the longest frame. -/
theorem refillStep : Obligations.RefillStep := by
  intro s hdec hinv hs
  refine ⟨s.ibuf.moveDown s.pos s.avail, ?_, fun i hi => ?_, fun i hi => ?_, one_le_refillMax hinv.cap hs⟩
  · rw [engineStep_decoding hdec, iteration_refill (s := tick s) hs]
    rfl
  · rw [Mem.read_moveDown, if_pos hi]
  · rw [Mem.read_moveDown, if_neg (by omega)]

/-- Settles O41: each outcome of an iteration moves the cursor over a slice, and the staged bytes follow the unconsumed
ones in the buffer. -/
theorem unconsumedInputKept : Obligations.UnconsumedInputKept := by
  refine ⟨fun s hdec _ => ?engine, fun s he hp hle => ⟨⟨_, exec_eq_issue _ _, ?done⟩, ⟨_, exec_eq_issue _ _, ?error⟩⟩,
    fun s v he hc hwf hle => ⟨_, hostWrite_inData v s, ?staged⟩⟩
  case engine =>
    rw [engineStep_decoding hdec]
    exact iteration_consumes (s := tick s) hdec.1
  case done =>
    rw [issue_accepted (by simp [rejection, he]), unread_append_staged hle]
    simp [effectOf, refillEffect_pull, hp, unread]
  case error =>
    rw [issue_accepted (by simp [rejection, he])]
    simp [effectOf, refillEffect_pull_err, hp, unread]
  case staged => exact ⟨staged_writeInData (s := respond false 0 (tick s)) v he hc hwf,
    unread_writeInData (s := respond false 0 (tick s)) v he hc hle⟩

/-- Settles O45: of the five commands that can change end of file only the two answers set it, and under the invariant
they never clear it. -/
theorem endOfFileFlag : Obligations.EndOfFileFlag := by
  refine ⟨fun s t hinv h => ⟨fun hs ht => ?set, fun hs ht => ?clear⟩, fun s hdec h => ?quiet⟩
  case set =>
    obtain ⟨-, hclear⟩ | ⟨i, hi, hcmd, b, -, rfl⟩ := step_eof_ne h (by simp [hs, ht])
    · simp [ht] at hclear
    · simp only [List.mem_cons, List.not_mem_nil, or_false] at hi
      rcases hi with rfl | rfl | rfl | rfl | rfl
      · simp [effectOf] at ht
      · simp [effectOf, openEffect] at ht
      · simp [effectOf, closeEffect] at ht
      · exact .inl hcmd
      · exact .inr hcmd
  case clear =>
    obtain ⟨hr, -⟩ | ⟨i, hi, hcmd, b, hb, rfl⟩ := step_eof_ne h (by simp [hs, ht])
    · exact .inr (.inr (.inr hr))
    · have hkept (hi : i = .refillDone ∨ i = .refillDoneErr) : (effectOf i b).eof = true :=
        effectOf_eof_refill hi (by rw [hb]; exact fun hp => (hinv.filling hp).2) (by rw [hb]; exact hs)
      simp only [List.mem_cons, List.not_mem_nil, or_false] at hi
      rcases hi with rfl | rfl | rfl | hi
      · exact .inl hcmd
      · exact .inr (.inl hcmd)
      · exact .inr (.inr (.inl hcmd))
      · simp [hkept hi] at ht
  case quiet =>
    rw [engineStep_decoding hdec]
    exact iteration_eof_engine (s := tick s) hdec.1 h

end Sys2Proof.Machine
end

section
/-! PROOF. Input-buffer bytes that are neither input nor staged never reach anything (O46). -/

namespace Sys2Proof.Machine

/-! ## Operations that do not touch the buffer -/

/-- An operation that neither reads nor writes the buffer's bytes, and makes none of them input or staged. -/
structure BufferBlind (F : State → State) : Prop where
  commutes : ∀ s m, F { s with ibuf := m } = { F s with ibuf := m }
  bound    : ∀ s, (F s).avail + (F s).refillCount ≤ s.avail + s.refillCount

/-- The relation `SameInput`, with the second state's buffer named. -/
theorem sameInput_iff {s t : State} : SameInput s t ↔
    ∃ m : Mem, t = { s with ibuf := m } ∧ ∀ a, a < s.avail + s.refillCount → m.read a = s.ibuf.read a := by
  refine ⟨fun ⟨ht, hread⟩ => ⟨t.ibuf, ht, hread⟩, ?_⟩
  rintro ⟨m, rfl, hread⟩
  exact ⟨rfl, hread⟩

theorem SameInput.refl (s : State) : SameInput s s := ⟨rfl, fun _ _ => rfl⟩

theorem BufferBlind.ibuf_eq {F : State → State} (hF : BufferBlind F) (s : State) : (F s).ibuf = s.ibuf :=
  (congrArg State.ibuf (hF.commutes s s.ibuf) :)

theorem BufferBlind.sameInput {F : State → State} (hF : BufferBlind F) {s t : State} (h : SameInput s t) :
    SameInput (F s) (F t) := by
  obtain ⟨m, rfl, hread⟩ := sameInput_iff.1 h
  refine sameInput_iff.2 ⟨m, hF.commutes s m, fun a ha => ?_⟩
  rw [hF.ibuf_eq, hread a (lt_of_lt_of_le ha (hF.bound s))]

theorem bufferBlind_tick : BufferBlind tick := ⟨fun _ _ => rfl, fun _ => le_rfl⟩

theorem bufferBlind_respond (e : Bool) (d : Word) : BufferBlind (respond e d) := ⟨fun _ _ => rfl, fun _ => le_rfl⟩

theorem bufferBlind_raiseHostError (e : HostErr) : BufferBlind (raiseHostError e) :=
  ⟨fun _ _ => rfl, fun _ => le_rfl⟩

theorem bufferBlind_syncSkip : BufferBlind syncSkip := ⟨fun _ _ => rfl, fun _ => le_rfl⟩

theorem bufferBlind_dropFrame (c : Cause) (n : Nat) (r : List Byte) : BufferBlind (dropFrame c n r) :=
  ⟨fun _ _ => by simp only [dropFrame], fun _ => le_rfl⟩

theorem bufferBlind_endOfStream : BufferBlind endOfStream := ⟨fun _ _ => rfl, fun _ => Nat.le_add_right _ _⟩

theorem bufferBlind_deliver (H : Word) (f : FrameIn) (r : List Byte) : BufferBlind (deliver H f r) :=
  ⟨fun _ _ => by simp only [deliver, complete, forceStereo], fun _ => Nat.le_add_right _ _⟩

/-- PULL's two outcomes touch no byte (47_session_commands.md R670). -/
theorem bufferBlind_pullEffect : BufferBlind pullEffect := by
  refine ⟨fun s m => ?_, fun s => ?_⟩ <;> by_cases h : s.session = .exhausted
  · rw [pullEffect_exhausted h, pullEffect_exhausted (s := { s with ibuf := m }) h]
    rfl
  · rw [pullEffect_streaming h, pullEffect_streaming (s := { s with ibuf := m }) h]
    rfl
  · simp [pullEffect_exhausted h]
  · simp [pullEffect_streaming h]

/-- An accepted answer turns staged bytes into input, and touches none (40_bitstream_reader.md R305). -/
theorem bufferBlind_refillEffect (readError : Bool) : BufferBlind (refillEffect readError) := by
  refine ⟨fun s m => ?_, fun s => ?_⟩ <;> by_cases h : s.pending = .opening <;> cases readError
  · rw [refillEffect_open h, refillEffect_open (s := { s with ibuf := m }) h]
    rfl
  · rw [refillEffect_open_err h, refillEffect_open_err (s := { s with ibuf := m }) h]
    rfl
  · rw [refillEffect_pull h, refillEffect_pull (s := { s with ibuf := m }) h]
    rfl
  · rw [refillEffect_pull_err h, refillEffect_pull_err (s := { s with ibuf := m }) h]
    rfl
  · simp [refillEffect_open h]
  · simp [refillEffect_open_err h]
  · simp [refillEffect_pull h]
  · simp [refillEffect_pull_err h]

/-- Only RESET writes the buffer, which it empties. -/
theorem bufferBlind_effectOf {i : Instr} (hi : i ≠ .reset) : BufferBlind (effectOf i) := by
  cases i with
  | reset => exact absurd rfl hi
  | nop => exact ⟨fun _ _ => rfl, fun _ => Nat.le_add_right _ _⟩
  | openFile => exact ⟨fun _ _ => rfl, fun _ => Nat.zero_le _⟩
  | pull => exact bufferBlind_pullEffect
  | close => exact ⟨fun _ _ => rfl, fun _ => Nat.zero_le _⟩
  | refillDone => exact bufferBlind_refillEffect false
  | refillDoneErr => exact bufferBlind_refillEffect true
  | irqAck => exact ⟨fun _ _ => rfl, fun _ => le_rfl⟩

/-! ## Operations that read or write the buffer -/

theorem sameInput_resetBlock {s t : State} (h : SameInput s t) : SameInput (resetBlock s) (resetBlock t) := by
  obtain ⟨m, rfl, -⟩ := sameInput_iff.1 h
  exact SameInput.refl _

/-- The refill moves input only (40_bitstream_reader.md R303). -/
theorem sameInput_refillRequest {s t : State} (h : SameInput s t) : SameInput (refillRequest s) (refillRequest t) := by
  obtain ⟨m, rfl, hread⟩ := sameInput_iff.1 h
  refine sameInput_iff.2 ⟨m.moveDown s.pos s.avail, rfl, fun a ha => ?_⟩
  replace ha : a < s.avail - s.pos := ha
  rw [refillRequest_ibuf, Mem.read_moveDown, Mem.read_moveDown, if_pos ha, if_pos ha]
  exact hread _ (by omega)

/-- A staged byte is the same in both (40_bitstream_reader.md R304). -/
theorem sameInput_writeInData {s t : State} (v : Word) (h : SameInput s t) (hs : s.ibuf.wf = true)
    (ht : t.ibuf.wf = true) : SameInput (writeInData v s) (writeInData v t) := by
  obtain ⟨m, rfl, hread⟩ := sameInput_iff.1 h
  rcases writeInData_cases v s with ⟨he, e⟩ | ⟨he, hc, e⟩ | ⟨he, hc, e⟩
  · rw [e, writeInData_outside (s := { s with ibuf := m }) he]
    exact (bufferBlind_raiseHostError _).sameInput h
  · rw [e, writeInData_full (s := { s with ibuf := m }) he hc]
    exact (bufferBlind_raiseHostError _).sameInput h
  · rw [e, writeInData_staged (s := { s with ibuf := m }) he hc]
    refine sameInput_iff.2 ⟨_, rfl, fun a ha => ?_⟩
    replace ha : a < s.avail + (s.refillCount + 1) := ha
    show (m.write (s.avail + s.refillCount) _).read a = (s.ibuf.write (s.avail + s.refillCount) _).read a
    by_cases hlast : a = s.avail + s.refillCount
    · rw [hlast, Mem.read_write_same ht, Mem.read_write_same hs]
    · rw [Mem.read_write_other _ _ hlast, Mem.read_write_other _ _ hlast, hread a (by omega)]

/-! ## The engine's step -/

/-- The header word is read only where its four bytes are input (41_frame_header.md R351). -/
theorem headerWordAt_sameInput {s t : State} (h : SameInput s t) (hfour : ensure s 4 = true) :
    headerWordAt t = headerWordAt s := by
  obtain ⟨m, rfl, hread⟩ := sameInput_iff.1 h
  have hlen := ensure_iff.1 hfour
  have hbyte (i : Nat) (hi : i < 4) : m.read (s.pos + i) = s.ibuf.read (s.pos + i) := hread _ (by omega)
  show wordOfBytes (m.read s.pos) (m.read (s.pos + 1)) (m.read (s.pos + 2)) (m.read (s.pos + 3)) = _
  rw [hbyte 1 (by omega), hbyte 2 (by omega), hbyte 3 (by omega), show m.read s.pos = _ from hbyte 0 (by omega)]
  rfl

theorem headerStage_sameInput {s t : State} (h : SameInput s t) : headerStage t = headerStage s := by
  by_cases hfour : ensure s 4 = true
  · have hword := headerWordAt_sameInput h hfour
    obtain ⟨m, rfl, -⟩ := sameInput_iff.1 h
    unfold headerStage
    rw [hword]
    rfl
  · have hshort : ensure s 4 = false := Bool.eq_false_iff.2 hfour
    obtain ⟨m, rfl, -⟩ := sameInput_iff.1 h
    unfold headerStage
    rw [if_pos hshort, if_pos (show ensure { s with ibuf := m } 4 = false from hshort)]
    rfl

/-- A frame's bytes are input (41_frame_header.md R359). -/
theorem frameBytes_sameInput {s t : State} {H : Word} (h : SameInput s t) (hs : headerStage s = .frame H) :
    frameBytes t (headerOfWord H) = frameBytes s (headerOfWord H) := by
  obtain ⟨m, rfl, hread⟩ := sameInput_iff.1 h
  obtain ⟨-, -, -, -, -, -, hlen⟩ := headerStage_frame hs
  rw [ensure_iff] at hlen
  refine List.map_congr_left fun i hi => hread (s.pos + i) ?_
  have hlt := List.mem_range.1 hi
  omega

theorem iteration_endOfStream {s : State} (h : headerStage s = .endOfStream ∨ ∃ c, headerStage s = .fatal c) :
    iteration s = endOfStream s := by
  rcases h with h | ⟨c, h⟩ <;> simp only [iteration, h]

/-- Both states take the same outcome on the same frame. -/
theorem sameInput_iteration {s t : State} (h : SameInput s t) : SameInput (iteration s) (iteration t) := by
  have hstage := headerStage_sameInput h
  have hres : t.res = s.res := by rw [h.1]
  rcases iteration_cases s with ⟨hs, e⟩ | ⟨hs, e⟩ | ⟨hs, e⟩ | ⟨H, c, hs, hd, e⟩ | ⟨H, f, hs, hd, e⟩ <;>
    rw [← hstage] at hs <;> rw [e]
  · rw [iteration_refill hs]
    exact sameInput_refillRequest h
  · rw [iteration_endOfStream hs]
    exact bufferBlind_endOfStream.sameInput h
  · rw [iteration_skip hs]
    exact bufferBlind_syncSkip.sameInput h
  · have hframe := frameBytes_sameInput h (hstage ▸ hs)
    rw [iteration_drop hs (by rw [hframe, hres, hd]), hframe, hres]
    exact (bufferBlind_dropFrame _ _ _).sameInput h
  · have hframe := frameBytes_sameInput h (hstage ▸ hs)
    rw [iteration_deliver hs (by rw [hframe, hres, hd]), hframe, hres]
    exact (bufferBlind_deliver _ _ _).sameInput h

theorem sameInput_engineStep {s t : State} (h : SameInput s t) : SameInput (engineStep s) (engineStep t) := by
  have hiff : decoding t ↔ decoding s := by rw [h.1]; rfl
  by_cases hdec : decoding s
  · rw [engineStep_decoding hdec, engineStep_decoding (hiff.2 hdec)]
    exact sameInput_iteration (bufferBlind_tick.sameInput h)
  · rw [engineStep_waiting hdec, engineStep_waiting (mt hiff.1 hdec)]
    exact h

/-! ## Accesses, inputs and the step -/

/-- Where the first answers a next state, so does the second, and the two again differ in hidden bytes only. -/
def SameAnswer (r q : Result) : Prop := ∀ s', r = .next s' → ∃ t', q = .next t' ∧ SameInput s' t'

theorem SameInput.sameAnswer {s t : State} (h : SameInput s t) : SameAnswer (.next s) (.next t) := by
  rintro s' ⟨⟩
  exact ⟨t, rfl, h⟩

theorem sameAnswer_exec {s t : State} (i : Instr) (h : SameInput s t) : SameAnswer (exec i s) (exec i t) := by
  have hrej : rejection i t.engine t.session = rejection i s.engine s.session := by rw [h.1]
  rw [exec_eq_issue, exec_eq_issue]
  rcases issue_cases i (effectOf i) s with ⟨e, hr, he⟩ | ⟨hr, he⟩ <;> rw [he]
  · rw [issue_rejected (hrej.trans hr)]
    exact ((bufferBlind_raiseHostError e).sameInput h).sameAnswer
  · rw [issue_accepted (hrej.trans hr)]
    by_cases hi : i = .reset
    · rw [hi]
      exact (sameInput_resetBlock h).sameAnswer
    · exact ((bufferBlind_effectOf hi).sameInput h).sameAnswer

theorem sameAnswer_writeCmd {s t : State} (v : Word) (h : SameInput s t) :
    SameAnswer (writeCmd v s) (writeCmd v t) := by
  unfold writeCmd
  cases decode v with
  | error r => exact ((bufferBlind_raiseHostError _).sameInput h).sameAnswer
  | ok i => exact sameAnswer_exec i h

theorem sameAnswer_writeReg {s t : State} (r : Reg) (v : Word) (h : SameInput s t) (hs : s.ibuf.wf = true)
    (ht : t.ibuf.wf = true) : SameAnswer (writeReg r v s) (writeReg r v t) := by
  cases r with
  | cmd => exact sameAnswer_writeCmd v h
  | inData => exact (sameInput_writeInData v h hs ht).sameAnswer
  | ctrl =>
    have hb : BufferBlind fun s => { s with ctrl := v &&& ctrlMask } := ⟨fun _ _ => rfl, fun _ => le_rfl⟩
    exact (hb.sameInput h).sameAnswer
  | dbgSel =>
    have hb : BufferBlind fun s => { s with dbgSel := v &&& dbgSelMask } := ⟨fun _ _ => rfl, fun _ => le_rfl⟩
    exact (hb.sameInput h).sameAnswer
  | _ => exact h.sameAnswer

/-- No register shows a byte of the buffer (10_state.md R55). -/
theorem readReg_sameInput {s t : State} (r : Reg) (h : SameInput s t) : readReg t r = readReg s r := by
  rw [h.1]
  cases r <;> rfl

theorem pcmEntry_sameInput {s t : State} (k : Nat) (h : SameInput s t) : pcmEntry t k = pcmEntry s k := by
  rw [h.1]
  rfl

theorem sameAnswer_hostRead {s t : State} (off len : Nat) (h : SameInput s t) :
    SameAnswer (hostRead off len s) (hostRead off len t) := by
  have hepoch : t.epoch = s.epoch := by rw [h.1]
  unfold hostRead
  simp only [readReg_sameInput _ h, pcmEntry_sameInput _ h, hepoch]
  cases targetOf off len with
  | outside => exact fun _ => nofun
  | _ => exact ((bufferBlind_respond _ _).sameInput h).sameAnswer

theorem sameAnswer_hostWrite {s t : State} (off len : Nat) (v : Word) (h : SameInput s t) (hs : s.ibuf.wf = true)
    (ht : t.ibuf.wf = true) : SameAnswer (hostWrite off len v s) (hostWrite off len v t) := by
  have htick := bufferBlind_tick.sameInput h
  unfold hostWrite
  cases targetOf off len with
  | outside => exact fun _ => nofun
  | reg r => exact sameAnswer_writeReg r v ((bufferBlind_respond _ _).sameInput htick) hs ht
  | _ => exact ((bufferBlind_respond _ _).sameInput htick).sameAnswer

theorem sameAnswer_runEvent {s t : State} (e : Event) (h : SameInput s t) (hs : s.ibuf.wf = true)
    (ht : t.ibuf.wf = true) : SameAnswer (runEvent e s) (runEvent e t) := by
  cases e with
  | read off len => exact sameAnswer_hostRead off len h
  | write off len v => exact sameAnswer_hostWrite off len v h hs ht
  | engine => exact (sameInput_engineStep h).sameAnswer
  | reset => exact (sameInput_resetBlock (bufferBlind_tick.sameInput h)).sameAnswer

/-- Settles O46: both states take the same input or the engine's turn, and no operation reads a hidden byte. -/
theorem hiddenBytesNeverObserved : Obligations.HiddenBytesNeverObserved := by
  intro s t s' h hs ht hstep
  have hinputs : t.inputs = s.inputs := by rw [h.1]
  suffices hsame : SameAnswer (step s) (step t) from hsame s' hstep
  cases hi : s.inputs with
  | nil =>
    rw [step_nil hi, step_nil (hinputs.trans hi)]
    exact (sameInput_engineStep h).sameAnswer
  | cons e es =>
    have hb : BufferBlind fun s => { s with inputs := es } := ⟨fun _ _ => rfl, fun _ => le_rfl⟩
    rw [step_cons hi, step_cons (hinputs.trans hi)]
    exact sameAnswer_runEvent e (hb.sameInput h) hs ht

end Sys2Proof.Machine
end

section
/-! PROOF. Every step keeps the invariants (O40). -/

namespace Sys2Proof.Machine

/-! ## Decoded quantized values lie within 8206 (43_huffman.md R452) -/

/-- A magnitude that a table can code: 15 and the largest escape, of 13 bits (43_huffman.md R452). -/
def ValueFits (v : Int) : Prop := v.natAbs ≤ 8206

/-- Every line of a granule/channel holds a value that a table can code. -/
def LinesFit (l : Lines) : Prop := ∀ v ∈ l.toList, ValueFits v

/-- Both granules of a channel hold such values. -/
def ChanFits (x : ChanIn) : Prop := LinesFit x.g0.lines ∧ LinesFit x.g1.lines

/-- What holds of every entry and of the default holds of every lookup. -/
theorem getD_of_forall {α : Type} {P : α → Prop} {l : List α} {d : α} (hl : ∀ x ∈ l, P x) (hd : P d) (i : Nat) :
    P (l.getD i d) := by
  rw [List.getD_eq_getElem?_getD]
  cases hx : l[i]? with
  | none => exact hd
  | some x => exact hl x (List.mem_of_getElem? hx)

theorem linbits_le (t : Nat) : linbits t ≤ 13 :=
  getD_of_forall (P := (· ≤ 13)) (by decide) (by decide) t

/-- A codeword's entries lie in 0..15 (43_huffman.md R452). -/
theorem codeSet_entry_le {n : Nat} {k : Code} (hk : k ∈ codeSet n) : k.x ≤ 15 ∧ k.y ≤ 15 := by
  have hn : n ≠ 0 := fun h => by simp [h, codeSet] at hk
  obtain ⟨hlow, hdim⟩ := codeSetDim_bounds n
  have below (hx : k.x < codeSetDim n) (hy : k.y < codeSetDim n) : k.x ≤ 15 ∧ k.y ≤ 15 := by omega
  rcases codeSet_cases hn with ⟨-, he⟩ | hv | he
  · rw [he] at hk
    exact (by decide : ∀ k ∈ codesH1, k.x ≤ 15 ∧ k.y ≤ 15) k hk
  · simp only [codeSetValid, Bool.and_eq_true, List.all_eq_true, decide_eq_true_eq] at hv
    obtain ⟨⟨⟨-, entries⟩, -⟩, -⟩ := hv
    obtain ⟨⟨hx, hy⟩, -⟩ := entries k hk
    exact below hx hy
  · rw [he] at hk
    simp only [plainCodes, List.mem_map, List.mem_range] at hk
    obtain ⟨j, hj, rfl⟩ := hk
    exact below (Nat.div_lt_of_lt_mul hj) (Nat.mod_lt _ (by omega))

theorem signedRead_natAbs_le (m : Nat) (c : Cursor) : (signedRead m c).1.natAbs ≤ m := by
  unfold signedRead
  split_ifs <;> simp

/-- A value of a pair (43_huffman.md R458). -/
theorem pairValue_fits {lb v : Nat} (c : Cursor) (hlb : lb ≤ 13) (hv : v ≤ 15) : ValueFits (pairValue lb v c).1 := by
  unfold ValueFits
  by_cases escape : 0 < lb ∧ v = 15
  · rw [pairValue_escape c escape]
    have hbits := Cursor.getBits_lt lb c
    have hpow : 2 ^ lb ≤ 2 ^ 13 := Nat.pow_le_pow_right (by decide) hlb
    have hread := signedRead_natAbs_le (15 + (c.getBits lb).1) (c.getBits lb).2
    omega
  · rw [pairValue_plain c escape]
    have hread := signedRead_natAbs_le v c
    omega

/-- A value of a quadruple (43_huffman.md R461). -/
theorem quadValue_fits (b : Bool) (c : Cursor) : ValueFits (quadValue b c).1 := by
  have hread := signedRead_natAbs_le b.toNat c
  have hb := Bool.toNat_le b
  rw [ValueFits, quadValue_eq_signedRead]
  omega

theorem decodePair_fits {t : Nat} {c c' : Cursor} {x : Int × Int} (h : decodePair t c = .ok (x, c')) :
    ValueFits x.1 ∧ ValueFits x.2 := by
  unfold decodePair at h
  split at h
  · cases h
    exact ⟨Nat.zero_le _, Nat.zero_le _⟩
  simp only at h
  split at h
  · cases h
  · rename_i k c1 hm
    cases h
    obtain ⟨hx, hy⟩ := codeSet_entry_le (matchCode_mem hm)
    exact ⟨pairValue_fits _ (linbits_le t) hx, pairValue_fits _ (linbits_le t) hy⟩

theorem decodeQuad_fits (sel : Bool) (c : Cursor) : ∀ v ∈ (decodeQuad sel c).1, ValueFits v := by
  intro v hv
  simp only [decodeQuad, List.mem_cons, List.not_mem_nil, or_false] at hv
  rcases hv with rfl | rfl | rfl | rfl <;> exact quadValue_fits _ _

theorem bigValuesLoop_fits {table : Nat → Nat} {partEnd n i : Nat} {c c' : Cursor} {l : List Int}
    (h : bigValuesLoop table partEnd n i c = .ok (l, c')) : ∀ v ∈ l, ValueFits v := by
  induction n generalizing i c l with
  | zero =>
    cases h
    simp
  | succ n ih =>
    simp only [bigValuesLoop] at h
    split at h
    · cases h
    rename_i x c1 hpair
    split at h
    · cases h
    split at h
    · cases h
    rename_i l' c2 hloop
    cases h
    obtain ⟨hx, hy⟩ := decodePair_fits hpair
    simp only [List.forall_mem_cons]
    exact ⟨hx, hy, ih hloop⟩

theorem count1Loop_fits (sel : Bool) (partEnd n : Nat) (c : Cursor) :
    ∀ v ∈ count1Loop sel partEnd n c, ValueFits v := by
  induction n generalizing c with
  | zero => simp [count1Loop]
  | succ n ih =>
    simp only [count1Loop]
    split_ifs
    · simp
    · exact List.forall_mem_append.2 ⟨decodeQuad_fits sel c, ih _⟩
    · simp

theorem decodeSpectrum_fits {freq partEnd : Nat} {g : GranuleInfo} {c : Cursor} {l : Lines}
    (h : decodeSpectrum freq g partEnd c = .ok l) : LinesFit l := by
  unfold decodeSpectrum at h
  split at h
  · cases h
  split at h
  · cases h
  rename_i big c1 hbig
  cases h
  intro v hv
  rcases mem_fillTo hv with hv | rfl
  · exact List.forall_mem_append.2 ⟨bigValuesLoop_fits hbig, count1Loop_fits _ _ _ _⟩ v hv
  · exact Nat.zero_le _

theorem decodePart_fits {freq gr scfsi start : Nat} {prev : Scalefac} {g : GranuleInfo} {bits : List Bool} {p : Part}
    (h : decodePart freq gr scfsi prev g bits start = .ok p) : LinesFit p.lines := by
  unfold decodePart at h
  simp only at h
  split at h
  · cases h
  split at h
  · cases h
  rename_i l hl
  cases h
  exact decodeSpectrum_fits hl

/-- A channel that the frame does not have holds zeros. -/
theorem noChan_fits : ChanFits noChan := by
  have hzero : LinesFit noPart.lines := fun v hv => by
    rw [noPart, Vector.toList_replicate] at hv
    rw [List.eq_of_mem_replicate hv]
    exact Nat.zero_le _
  exact ⟨hzero, hzero⟩

theorem decodeParts_fits {h : Header} {x : SideInfo} {bits : List Bool} {start : Nat} {c0 c1 : ChanIn}
    (hd : decodeParts h x bits start = .ok (c0, c1)) : ChanFits c0 ∧ ChanFits c1 := by
  unfold decodeParts at hd
  split at hd
  · unfold decodeMono at hd
    repeat' split at hd
    all_goals cases hd
    exact ⟨⟨decodePart_fits ‹_›, decodePart_fits ‹_›⟩, noChan_fits⟩
  · unfold decodeStereo at hd
    repeat' split at hd
    all_goals cases hd
    exact ⟨⟨decodePart_fits ‹_›, decodePart_fits ‹_›⟩, decodePart_fits ‹_›, decodePart_fits ‹_›⟩

/-- A decoded frame has its own header and values that the tables can code (42_side_info_main_data.md R410). -/
theorem decodeFrame_ok_fits {h : Header} {frame res : List Byte} {f : FrameIn} (hd : decodeFrame h frame res = .ok f) :
    f.header = h ∧ ChanFits f.ch0 ∧ ChanFits f.ch1 := by
  unfold decodeFrame at hd
  simp only at hd
  split at hd
  · cases hd
  split at hd
  · cases hd
  split at hd
  · cases hd
  split at hd
  · cases hd
  · rename_i c0 c1 hparts
    cases hd
    exact ⟨rfl, decodeParts_fits hparts⟩

/-- The snapshot of such a frame holds such values, and 0 where it has no line (10_state.md R96). -/
theorem snapLine_snapshotOf_bounds {f : FrameIn} (h0 : ChanFits f.ch0) (h1 : ChanFits f.ch1) (gr ch line : Nat) :
    -8206 ≤ snapLine (snapshotOf f) gr ch line ∧ snapLine (snapshotOf f) gr ch line ≤ 8206 := by
  have hempty : LinesFit (Vector.replicate 576 0) := noChan_fits.1
  have hgranules : ∀ x ∈ (snapshotOf f).toList, ∀ l ∈ x.toList, LinesFit l := by
    simp only [snapshotOf, Vector.toList_mk, List.forall_mem_cons]
    exact ⟨⟨h0.1, h1.1, nofun⟩, ⟨h0.2, h1.2, nofun⟩, nofun⟩
  have hlines := getD_of_forall (P := fun x : Vector Lines 2 => ∀ l ∈ x.toList, LinesFit l)
    (d := Vector.replicate 2 (Vector.replicate 576 0)) hgranules
    (fun l hl => by rw [Vector.toList_replicate] at hl; rw [List.eq_of_mem_replicate hl]; exact hempty) gr
  have hvalue : ValueFits (snapLine (snapshotOf f) gr ch line) :=
    getD_of_forall (getD_of_forall hlines hempty ch) (Nat.zero_le _) line
  unfold ValueFits at hvalue
  omega

/-! ## Invariants of what a step leaves alone -/

/-- What the invariants of the buffer, of the reported format and of the ranges speak of. -/
def stored (s : State) : Mem × Nat × (Word × Word × Word × Word × Option Lock × SynChan × SynChan) ×
    (Word × Word × List Byte × Snapshot) :=
  (s.ibuf, s.ibufCap, (s.header, s.sampleRate, s.bitrate, s.srcChannels, s.lock, s.syn0, s.syn1),
    (s.ctrl, s.dbgSel, s.res, s.isSnap))

/-- Where all of that stays, the reader, the protocol and the PCM registers are left to show. -/
theorem Inv.of_stored_eq {s t : State} (h : Inv s) (he : stored t = stored s) (reader : ReaderInv t)
    (protocol : ProtocolInv t) (pcm : PcmInv t) : Inv t := by
  simp only [stored, Prod.mk.injEq] at he
  obtain ⟨hibuf, hcap, ⟨hheader, hrate, hbitrate, hsrc, hlock, hsyn0, hsyn1⟩, hctrl, hdbg, hres, hsnap⟩ := he
  have hrange : ∀ c ∈ t.ibuf, c.1 < t.ibufCap := by
    rw [hibuf, hcap]
    exact h.buffer.inRange
  refine ⟨reader, ⟨?wf, hrange, read_guard hrange⟩, protocol, pcm, ⟨?unlocked, ?locked⟩, ⟨?ctrl, ?dbgSel, ?res, ?snap⟩⟩
  case wf => rw [hibuf]; exact h.buffer.wf
  case unlocked => rw [hlock, hheader, hrate, hbitrate, hsrc, hsyn0, hsyn1]; exact h.format.unlocked
  case locked => rw [hlock, hheader, hrate, hbitrate, hsrc, hsyn1]; exact h.format.locked
  case ctrl => rw [hctrl]; exact h.range.ctrl
  case dbgSel => rw [hdbg]; exact h.range.dbgSel
  case res => rw [hres]; exact h.range.res
  case snap => rw [hsnap]; exact h.range.snapshot

/-- ERR and the model's own fields are in no invariant. -/
theorem Inv.withFreeFields {s : State} (h : Inv s) (err : HostErr) (inputs : List Event) (busData : Word)
    (busError : Bool) (epoch : Nat) :
    Inv { s with err := err, inputs := inputs, busData := busData, busError := busError, epoch := epoch } := by
  obtain ⟨cap, posLe, availLe, countLe, room, asks, quiet, filling⟩ := h.reader
  obtain ⟨pendingNone, busyPulls, notDone, streams, pcm, eosIdle⟩ := h.protocol
  exact h.of_stored_eq rfl ⟨cap, posLe, availLe, countLe, room, asks, quiet, filling⟩
    ⟨pendingNone, busyPulls, notDone, streams, pcm, eosIdle⟩ ⟨h.pcm.valid, h.pcm.invalid⟩

theorem Inv.sameBlock {s b : State} (hb : SameBlock s b) (h : Inv s) : Inv b := by
  rw [hb]
  exact h.withFreeFields s.err _ _ _ _

theorem inv_raiseHostError {s : State} (h : Inv s) (e : HostErr) : Inv (raiseHostError e s) :=
  h.withFreeFields e s.inputs s.busData s.busError s.epoch

theorem inv_tick {s : State} (h : Inv s) : Inv (tick s) :=
  h.withFreeFields s.err s.inputs s.busData s.busError (s.epoch + 1)

/-! ## The invariants at a command's end, while a PULL decodes, and without PCM or a format -/

/-- While the block works on a command no PCM is valid and no end of stream stands (20_memory.md R172). -/
theorem ProtocolInv.working {s : State} (h : ProtocolInv s) (hne : s.engine ≠ .idle) :
    s.pcmValid = false ∧ s.eos = false :=
  ⟨Bool.eq_false_iff.2 fun hv => hne (h.pcm hv).1, Bool.eq_false_iff.2 fun he => hne (h.eosIdle he).1⟩

/-- A completed command asks for nothing (47_session_commands.md R680). -/
theorem readerInv_complete {s : State} (hcap : 1441 ≤ s.ibufCap) (hpos : s.pos ≤ s.avail)
    (havail : s.avail ≤ s.ibufCap) : ReaderInv (complete s) :=
  ⟨hcap, hpos, havail, le_rfl, nofun, nofun, fun _ => rfl, nofun⟩

/-- A completed command leaves IDLE with no command pending (47_session_commands.md R680). -/
theorem protocolInv_complete {s : State}
    (hpcm : s.pcmValid = true → s.session = .streaming ∧ s.eos = false ∧ s.lock ≠ none)
    (heos : s.eos = true → s.session = .exhausted) : ProtocolInv (complete s) :=
  ⟨by simp, nofun, fun hne => absurd rfl hne, nofun, fun hv => ⟨rfl, hpcm hv⟩, fun he => ⟨rfl, heos he⟩⟩

/-- A decoding PULL asks for nothing (40_bitstream_reader.md R302, R303). -/
theorem readerInv_decoding {s : State} (hdec : decoding s) (hcap : 1441 ≤ s.ibufCap) (hpos : s.pos ≤ s.avail)
    (havail : s.avail ≤ s.ibufCap) (hcount : s.refillCount ≤ s.refillMax) (hmax : s.refillMax = 0) : ReaderInv s := by
  obtain ⟨hbusy, hpulls⟩ := hdec
  exact ⟨hcap, hpos, havail, hcount, by simp [hbusy], by simp [hbusy], fun _ => hmax, by simp [hpulls]⟩

/-- A decoding PULL belongs to a streaming session and has no result yet (47_session_commands.md R650, R670). -/
theorem protocolInv_decoding {s : State} (hdec : decoding s) (hdone : s.done = false)
    (hsession : s.session = .streaming) (hpcm : s.pcmValid = false) (heos : s.eos = false) : ProtocolInv s := by
  obtain ⟨hbusy, hpulls⟩ := hdec
  exact ⟨by simp [hbusy, hpulls], fun _ => hpulls, fun _ => hdone, fun _ => hsession, by simp [hpcm], by simp [heos]⟩

/-- A state without PCM (10_state.md R71, R72). -/
theorem pcmInv_cleared {s : State} (hv : s.pcmValid = false) (hl : s.pcmLength = 0) (hc : s.pcmChannels = 0) :
    PcmInv s := ⟨by simp [hv], fun _ => ⟨hl, hc⟩⟩

/-- A state before its session's first delivery (10_state.md R120). -/
theorem formatInv_unlocked {s : State} (hlock : s.lock = none) (h : s.header = 0 ∧ s.sampleRate = 0 ∧ s.bitrate = 0 ∧
    s.srcChannels = 0 ∧ s.syn0 = zeroSyn ∧ s.syn1 = zeroSyn) : FormatInv s := ⟨fun _ => h, by simp [hlock]⟩

/-! ## Each command's effect -/

theorem inv_accept {s : State} (h : Inv s) : Inv (accept s) := by
  obtain ⟨cap, posLe, availLe, countLe, room, asks, quiet, filling⟩ := h.reader
  obtain ⟨pendingNone, busyPulls, -, streams, pcm, eosIdle⟩ := h.protocol
  exact h.of_stored_eq rfl ⟨cap, posLe, availLe, countLe, room, asks, quiet, filling⟩
    ⟨pendingNone, busyPulls, fun _ => rfl, streams, pcm, eosIdle⟩ ⟨h.pcm.valid, h.pcm.invalid⟩

theorem inv_complete {s : State} (h : Inv s) : Inv (complete s) :=
  h.of_stored_eq rfl (readerInv_complete h.reader.cap h.reader.posLe h.reader.availLe)
    (protocolInv_complete (fun hv => (h.protocol.pcm hv).2) fun he => (h.protocol.eosIdle he).2)
    ⟨h.pcm.valid, h.pcm.invalid⟩

/-- An OPEN asks for a whole buffer (47_session_commands.md R660; 40_bitstream_reader.md R302). -/
theorem inv_openEffect {s : State} (h : Inv s) : Inv (openEffect s) where
  reader :=
    ⟨h.reader.cap, le_rfl, Nat.zero_le _, Nat.zero_le _, fun _ => (Nat.zero_add _).le,
      fun _ => ⟨le_trans (by decide) h.reader.cap, rfl⟩, fun hne => absurd rfl hne, fun _ => ⟨rfl, rfl⟩⟩
  buffer := ⟨h.buffer.wf, h.buffer.inRange, h.buffer.guard⟩
  protocol := ⟨by simp [openEffect], nofun, fun _ => rfl, nofun, nofun, nofun⟩
  pcm := pcmInv_cleared rfl rfl rfl
  format := formatInv_unlocked rfl ⟨rfl, rfl, rfl, rfl, rfl, rfl⟩
  range := ⟨h.range.ctrl, h.range.dbgSel, Nat.zero_le _, by simp [openEffect]⟩

theorem inv_closeEffect {s : State} (h : Inv s) : Inv (closeEffect s) where
  reader := readerInv_complete h.reader.cap le_rfl (Nat.zero_le _)
  buffer := ⟨h.buffer.wf, h.buffer.inRange, h.buffer.guard⟩
  protocol := protocolInv_complete nofun nofun
  pcm := pcmInv_cleared rfl rfl rfl
  format := formatInv_unlocked rfl ⟨rfl, rfl, rfl, rfl, rfl, rfl⟩
  range := ⟨h.range.ctrl, h.range.dbgSel, Nat.zero_le _, h.range.snapshot⟩

/-- PULL of an exhausted session ends at once, and of a streaming one starts (47_session_commands.md R670). -/
theorem inv_pullEffect {s : State} (h : Inv s) (hidle : s.engine = .idle) (hsession : s.session ≠ .uninitialized) :
    Inv (pullEffect s) := by
  obtain ⟨cap, posLe, availLe, countLe, -, -, quiet, -⟩ := h.reader
  by_cases hex : s.session = .exhausted
  · rw [pullEffect_exhausted hex]
    exact h.of_stored_eq rfl (readerInv_complete cap posLe availLe) (protocolInv_complete nofun fun _ => hex)
      (pcmInv_cleared rfl rfl rfl)
  · have hstreams : s.session = .streaming := by
      cases hs : s.session with
      | uninitialized => exact absurd hs hsession
      | streaming => rfl
      | exhausted => exact absurd hs hex
    rw [pullEffect_streaming hex]
    exact h.of_stored_eq rfl (readerInv_decoding ⟨rfl, rfl⟩ cap posLe availLe countLe (quiet (by simp [hidle])))
      (protocolInv_decoding ⟨rfl, rfl⟩ rfl hstreams rfl rfl) (pcmInv_cleared rfl rfl rfl)

/-- The answer to an OPEN ends it, with the staged bytes as input or with none (47_session_commands.md R661). -/
theorem inv_refillEffect_open {s : State} (h : Inv s) (hn : s.engine = .needData) (hp : s.pending = .opening)
    (readError : Bool) : Inv (refillEffect readError s) := by
  obtain ⟨cap, posLe, availLe, countLe, room, -⟩ := h.reader
  obtain ⟨hpcm, heos⟩ := h.protocol.working (by simp [hn])
  have hfits : s.avail + s.refillCount ≤ s.ibufCap := (Nat.add_le_add_left countLe _).trans (room hn)
  cases readError with
  | false =>
    rw [refillEffect_open hp]
    exact h.of_stored_eq rfl (readerInv_complete cap (Nat.le_add_right_of_le posLe) hfits)
      (protocolInv_complete (by simp [hpcm]) (by simp [heos])) ⟨h.pcm.valid, h.pcm.invalid⟩
  | true =>
    rw [refillEffect_open_err hp]
    exact h.of_stored_eq rfl (readerInv_complete cap le_rfl (Nat.zero_le _))
      (protocolInv_complete (by simp [hpcm]) (by simp [heos])) ⟨h.pcm.valid, h.pcm.invalid⟩

/-- NEED_DATA that is not an OPEN's is a PULL's (47_session_commands.md R650). -/
theorem ProtocolInv.pulling {s : State} (h : ProtocolInv s) (hn : s.engine = .needData) (hp : s.pending ≠ .opening) :
    s.pending = .pulling := by
  have hnone : s.pending ≠ .none := fun e => by simp [h.pendingNone.1 e] at hn
  cases hs : s.pending with
  | none => exact absurd hs hnone
  | opening => exact absurd hs hp
  | pulling => rfl

/-- The answer to a PULL's refill lets it decode on (47_session_commands.md R675). -/
theorem inv_refillEffect_pull {s : State} (h : Inv s) (hn : s.engine = .needData) (hp : s.pending ≠ .opening)
    (readError : Bool) : Inv (refillEffect readError s) := by
  obtain ⟨cap, posLe, availLe, countLe, room, -⟩ := h.reader
  obtain ⟨hpcm, heos⟩ := h.protocol.working (by simp [hn])
  have hfits : s.avail + s.refillCount ≤ s.ibufCap := (Nat.add_le_add_left countLe _).trans (room hn)
  have hpulls := h.protocol.pulling hn hp
  have hsession := h.protocol.streams hpulls
  cases readError with
  | false =>
    rw [refillEffect_pull hp]
    exact h.of_stored_eq rfl
      (readerInv_decoding ⟨rfl, hpulls⟩ cap (Nat.le_add_right_of_le posLe) hfits le_rfl rfl)
      (protocolInv_decoding ⟨rfl, hpulls⟩ rfl hsession hpcm heos) ⟨h.pcm.valid, h.pcm.invalid⟩
  | true =>
    rw [refillEffect_pull_err hp]
    exact h.of_stored_eq rfl (readerInv_decoding ⟨rfl, hpulls⟩ cap posLe availLe le_rfl rfl)
      (protocolInv_decoding ⟨rfl, hpulls⟩ rfl hsession hpcm heos) ⟨h.pcm.valid, h.pcm.invalid⟩

theorem inv_refillEffect {s : State} (h : Inv s) (hn : s.engine = .needData) (readError : Bool) :
    Inv (refillEffect readError s) := by
  by_cases hp : s.pending = .opening
  · exact inv_refillEffect_open h hn hp readError
  · exact inv_refillEffect_pull h hn hp readError

/-- A command that the table of R682 accepts keeps the invariants. -/
theorem inv_effectOf {i : Instr} {s : State} (h : Inv s) (ha : rejection i s.engine s.session = none) :
    Inv (effectOf i s) := by
  have hstate := accepted_state ha
  cases i with
  | nop => exact inv_complete (inv_accept h)
  | reset => exact inv_resetBlock h.reader.cap
  | openFile => exact inv_openEffect h
  | pull => exact inv_pullEffect h hstate.1 hstate.2
  | close => exact inv_closeEffect h
  | refillDone => exact inv_refillEffect h hstate false
  | refillDoneErr => exact inv_refillEffect h hstate true
  | irqAck => exact inv_accept h

theorem inv_exec {i : Instr} {s t : State} (h : Inv s) (hx : exec i s = .next t) : Inv t := by
  rw [exec_eq_issue, Host.Outcome.next.injEq] at hx
  subst hx
  rcases issue_cases i (effectOf i) s with ⟨e, -, he⟩ | ⟨ha, he⟩ <;> rw [he]
  · exact inv_raiseHostError h e
  · exact inv_effectOf h ha

/-! ## Register writes -/

/-- A masked value has no bit outside the mask. -/
theorem and_mask_and_not (v m : Word) : v &&& m &&& ~~~m = 0 := by
  rw [BitVec.and_assoc, BitVec.and_not_self]
  exact BitVec.and_zero

/-- The writable fields of CTRL and DBG_SEL may take any value within their masks (10_state.md R61, R78). -/
theorem Inv.withSettings {s : State} (h : Inv s) {ctrl dbgSel : Word} (hc : ctrl &&& ~~~ctrlMask = 0)
    (hd : dbgSel &&& ~~~dbgSelMask = 0) : Inv { s with ctrl := ctrl, dbgSel := dbgSel } := by
  obtain ⟨cap, posLe, availLe, countLe, room, asks, quiet, filling⟩ := h.reader
  obtain ⟨pendingNone, busyPulls, notDone, streams, pcm, eosIdle⟩ := h.protocol
  exact {
    reader := ⟨cap, posLe, availLe, countLe, room, asks, quiet, filling⟩
    buffer := ⟨h.buffer.wf, h.buffer.inRange, h.buffer.guard⟩
    protocol := ⟨pendingNone, busyPulls, notDone, streams, pcm, eosIdle⟩
    pcm := ⟨h.pcm.valid, h.pcm.invalid⟩
    format := ⟨h.format.unlocked, h.format.locked⟩
    range := ⟨hc, hd, h.range.res, h.range.snapshot⟩ }

/-- A byte that is asked for has its place below IBUF_CAP (40_bitstream_reader.md R303, R304). -/
theorem bufferInv_write {s t : State} (h : BufferInv s) {a : Nat} (b : Byte) (ha : a < s.ibufCap)
    (hi : t.ibuf = s.ibuf.write a b) (hc : t.ibufCap = s.ibufCap) : BufferInv t := by
  have hrange : ∀ c ∈ t.ibuf, c.1 < t.ibufCap := by
    rw [hi, hc]
    intro c hcell
    rcases Mem.mem_write hcell with hcell | rfl
    · exact h.inRange c hcell
    · exact ha
  exact ⟨hi ▸ Mem.wf_write h.wf a b, hrange, read_guard hrange⟩

theorem inv_writeInData {s : State} (h : Inv s) (v : Word) : Inv (writeInData v s) := by
  rcases writeInData_cases v s with ⟨-, e⟩ | ⟨-, -, e⟩ | ⟨hn, hc, e⟩ <;> rw [e]
  · exact inv_raiseHostError h _
  · exact inv_raiseHostError h _
  obtain ⟨cap, posLe, availLe, countLe, room, asks, quiet, filling⟩ := h.reader
  obtain ⟨pendingNone, busyPulls, notDone, streams, pcm, eosIdle⟩ := h.protocol
  have hcount : s.refillCount < s.refillMax := lt_of_le_of_ne countLe hc
  exact {
    reader := ⟨cap, posLe, availLe, hcount, room, asks, quiet, filling⟩
    buffer := bufferInv_write h.buffer _ (lt_of_lt_of_le (Nat.add_lt_add_left hcount _) (room hn)) rfl rfl
    protocol := ⟨pendingNone, busyPulls, notDone, streams, pcm, eosIdle⟩
    pcm := ⟨h.pcm.valid, h.pcm.invalid⟩
    format := ⟨h.format.unlocked, h.format.locked⟩
    range := ⟨h.range.ctrl, h.range.dbgSel, h.range.res, h.range.snapshot⟩ }

/-! ## The outcomes of an iteration -/

/-- What the invariants say of a PULL that decodes. -/
theorem Inv.decoding_facts {s : State} (h : Inv s) (hdec : decoding s) : s.refillMax = 0 ∧ s.done = false ∧
    s.session = .streaming ∧ s.pcmValid = false ∧ s.eos = false := by
  have hne : s.engine ≠ .idle := by simp [hdec.1]
  exact ⟨h.reader.quiet (by simp [hdec.1]), h.protocol.notDone hne, h.protocol.streams hdec.2, h.protocol.working hne⟩

/-- The refill's move stays below the bytes that were input (40_bitstream_reader.md R303). -/
theorem inv_refillRequest {s : State} (h : Inv s) (hdec : decoding s) (hs : headerStage s = .bufferExhausted) :
    Inv (refillRequest s) := by
  obtain ⟨-, hdone, hsession, hpcm, heos⟩ := h.decoding_facts hdec
  have havail := h.reader.availLe
  have hrange : ∀ c ∈ (refillRequest s).ibuf, c.1 < (refillRequest s).ibufCap := by
    intro c hcell
    rcases Mem.mem_moveDown hcell with hlow | hcell
    · exact lt_of_lt_of_le hlow havail
    · exact h.buffer.inRange c hcell
  have hroom : s.avail - s.pos ≤ s.ibufCap := (Nat.sub_le _ _).trans havail
  exact {
    reader := ⟨h.reader.cap, Nat.zero_le _, hroom, Nat.zero_le _, fun _ => (Nat.add_sub_cancel' hroom).le,
      fun _ => ⟨one_le_refillMax h.reader.cap hs, rfl⟩, fun hne => absurd rfl hne, by simp [hdec.2]⟩
    buffer := ⟨Mem.wf_moveDown h.buffer.wf _ _, hrange, read_guard hrange⟩
    protocol := ⟨by simp [hdec.2], nofun, fun _ => hdone, fun _ => hsession, by simp [hpcm], by simp [heos]⟩
    pcm := ⟨h.pcm.valid, h.pcm.invalid⟩
    format := ⟨h.format.unlocked, h.format.locked⟩
    range := ⟨h.range.ctrl, h.range.dbgSel, h.range.res, h.range.snapshot⟩ }

theorem inv_endOfStream {s : State} (h : Inv s) (hdec : decoding s) : Inv (endOfStream s) := by
  obtain ⟨-, -, -, hpcm, -⟩ := h.decoding_facts hdec
  obtain ⟨hlength, hchannels⟩ := h.pcm.invalid hpcm
  exact h.of_stored_eq rfl (readerInv_complete h.reader.cap h.reader.posLe h.reader.availLe)
    (protocolInv_complete nofun fun _ => rfl) (pcmInv_cleared rfl hlength hchannels)

/-- A cursor moved over available bytes stays within them (40_bitstream_reader.md R308). -/
theorem ReaderInv.pos_add_le {s : State} {n : Nat} (h : ReaderInv s) (hn : ensure s n = true) :
    s.pos + n ≤ s.avail := by
  have hlen := ensure_iff.1 hn
  have hpos := h.posLe
  omega

theorem inv_syncSkip {s : State} (h : Inv s) (hdec : decoding s) (hs : headerStage s = .syncSkip) :
    Inv (syncSkip s) := by
  obtain ⟨hmax, hdone, hsession, hpcm, heos⟩ := h.decoding_facts hdec
  have hpos : s.pos + 1 ≤ s.avail := le_trans (by omega) (h.reader.pos_add_le (headerStage_skip hs))
  exact h.of_stored_eq rfl
    (readerInv_decoding (s := syncSkip s) hdec h.reader.cap hpos h.reader.availLe h.reader.countLe hmax)
    (protocolInv_decoding (s := syncSkip s) hdec hdone hsession hpcm heos) ⟨h.pcm.valid, h.pcm.invalid⟩

theorem inv_dropFrame {s : State} (h : Inv s) (hdec : decoding s) (c : Cause) {n : Nat} (r : List Byte)
    (hn : ensure s n = true) : Inv (dropFrame c n r s) := by
  obtain ⟨hmax, hdone, hsession, hpcm, heos⟩ := h.decoding_facts hdec
  have hpos : s.pos + n ≤ s.avail := h.reader.pos_add_le hn
  have hres : (dropFrame c n r s).res.length ≤ Config.resKeep := by
    rw [dropFrame_res]
    exact length_trimRes r
  exact {
    reader := readerInv_decoding (s := dropFrame c n r s) hdec h.reader.cap hpos h.reader.availLe h.reader.countLe hmax
    buffer := ⟨h.buffer.wf, h.buffer.inRange, h.buffer.guard⟩
    protocol := protocolInv_decoding (s := dropFrame c n r s) hdec hdone hsession hpcm heos
    pcm := ⟨h.pcm.valid, h.pcm.invalid⟩
    format := ⟨h.format.unlocked, h.format.locked⟩
    range := ⟨h.range.ctrl, h.range.dbgSel, hres, h.range.snapshot⟩ }

/-! ## The delivery -/

theorem Header.nch_cases (h : Header) : h.nch = 1 ∨ h.nch = 2 := by
  unfold Header.nch
  split <;> simp

/-- The output has one channel or two, and two where the source has (46_pcm_output.md R606). -/
theorem pcmInv_deliver (H : Word) (f : FrameIn) (r : List Byte) (s : State) : PcmInv (deliver H f r s) := by
  refine ⟨fun _ => ⟨rfl, ?channels, ?two⟩, nofun⟩ <;>
    simp only [deliver_pcmChannels, deliver_srcChannels, pcmChannelCount]
  case channels => split_ifs <;> simp
  case two =>
    rcases Header.nch_cases (headerOfWord H) with hone | htwo
    · simp [hone]
    · simp [htwo]

/-- A lock that the frame does not break is the frame's own format after the delivery (41_frame_header.md R358). -/
theorem lock_getD_of_not_broken {lock : Option Lock} {h : Header} (hb : lockBroken lock h = false) :
    lock.getD ⟨h.fs, h.nch⟩ = ⟨h.fs, h.nch⟩ := by
  cases lock with
  | none => rfl
  | some l => simpa [lockBroken] using hb

/-- A single-channel frame leaves SYN[1] (45_filterbank.md R590 F5). -/
theorem fxFrame_syn1_single {f : FrameIn} (y0 y1 : SynChan) (h : f.header.nch = 1) : (fxFrame f y0 y1).2.syn = y1 := by
  rw [fxFrame, if_pos h]
  rfl

/-- A single-channel session has never touched SYN[1] (45_filterbank.md R592). -/
theorem FormatInv.syn1_zero {s : State} {h : Header} (hf : FormatInv s) (hb : lockBroken s.lock h = false)
    (hone : h.nch = 1) : s.syn1 = zeroSyn := by
  cases hl : s.lock with
  | none =>
    obtain ⟨-, -, -, -, -, hsyn⟩ := hf.unlocked hl
    exact hsyn
  | some l =>
    obtain ⟨-, -, -, -, -, -, -, hsyn⟩ := hf.locked l hl
    have hlock := lock_getD_of_not_broken hb
    rw [hl, Option.getD_some] at hlock
    exact hsyn (by rw [hlock, hone])

theorem formatInv_deliver {s : State} {H : Word} {f : FrameIn} (r : List Byte) (h : FormatInv s)
    (hs : headerStage s = .frame H) (hheader : f.header = headerOfWord H) : FormatInv (deliver H f r s) := by
  obtain ⟨-, -, hsync, hvalid, hfree, hb, -⟩ := headerStage_frame hs
  refine ⟨fun hl => by simp at hl, fun l hl => ?_⟩
  rw [deliver_lock, lock_getD_of_not_broken hb, Option.some.injEq] at hl
  subst hl
  refine ⟨hsync, hvalid, hfree, rfl, rfl, rfl, rfl, fun hone => ?_⟩
  rw [deliver_syn1, fxFrame_syn1_single _ _ (hheader ▸ hone)]
  exact h.syn1_zero hb hone

theorem inv_deliver {s : State} {H : Word} {f : FrameIn} (r : List Byte) (h : Inv s) (hdec : decoding s)
    (hs : headerStage s = .frame H) (hd : decodeFrame (headerOfWord H) (frameBytes s (headerOfWord H)) s.res = .ok f) :
    Inv (deliver H f r s) := by
  obtain ⟨-, -, hsession, -, heos⟩ := h.decoding_facts hdec
  obtain ⟨-, -, -, -, -, -, hlen⟩ := headerStage_frame hs
  obtain ⟨hheader, hfit0, hfit1⟩ := decodeFrame_ok_fits hd
  have hres : (deliver H f r s).res.length ≤ Config.resKeep := by
    rw [deliver_res]
    exact length_trimRes r
  have hlock : (deliver H f r s).lock ≠ none := by simp
  exact {
    reader := readerInv_complete h.reader.cap (h.reader.pos_add_le hlen) h.reader.availLe
    buffer := ⟨h.buffer.wf, h.buffer.inRange, h.buffer.guard⟩
    protocol := protocolInv_complete (fun _ => ⟨hsession, heos, hlock⟩) (by simp [heos])
    pcm := pcmInv_deliver H f r s
    format := formatInv_deliver r h.format hs hheader
    range := ⟨h.range.ctrl, h.range.dbgSel, hres, snapLine_snapshotOf_bounds hfit0 hfit1⟩ }

/-! ## Steps -/

theorem inv_iteration {s : State} (h : Inv s) (hdec : decoding s) : Inv (iteration s) := by
  rcases iteration_cases s with ⟨hs, e⟩ | ⟨-, e⟩ | ⟨hs, e⟩ | ⟨H, c, hs, -, e⟩ | ⟨H, f, hs, hd, e⟩ <;> rw [e]
  · exact inv_refillRequest h hdec hs
  · exact inv_endOfStream h hdec
  · exact inv_syncSkip h hdec hs
  · obtain ⟨-, -, -, -, -, -, hlen⟩ := headerStage_frame hs
    exact inv_dropFrame h hdec c _ hlen
  · exact inv_deliver _ h hdec hs hd

theorem inv_engineStep {s : State} (h : Inv s) : Inv (engineStep s) := by
  by_cases hdec : decoding s
  · rw [engineStep_decoding hdec]
    exact inv_iteration (inv_tick h) hdec
  · rw [engineStep_waiting hdec]
    exact h

theorem inv_plainMove {b t : State} (h : Inv b) (hp : PlainMove b t) : Inv t := by
  rcases hp with rfl | rfl | ⟨v, rfl⟩ | rfl | ⟨v, rfl⟩ | ⟨v, rfl⟩
  · exact h
  · exact inv_engineStep h
  · exact inv_writeInData h v
  · exact inv_raiseHostError h _
  · exact h.withSettings (and_mask_and_not v ctrlMask) h.range.dbgSel
  · exact h.withSettings h.range.ctrl (and_mask_and_not v dbgSelMask)

/-- Settles O40: a step is a plain move, a command or a reset, and each keeps the invariants. -/
theorem stepKeepsInvariants : Obligations.StepKeepsInvariants := by
  intro s t h hstep
  obtain ⟨b, hb, ⟨-, -, hp⟩ | ⟨-, i, -, hx⟩ | ⟨-, -, rfl⟩⟩ := step_moves hstep
  · exact inv_plainMove (h.sameBlock hb) hp
  · exact inv_exec (h.sameBlock hb) hx
  · exact inv_resetBlock (h.sameBlock hb).reader.cap

end Sys2Proof.Machine
end

section
/-! PROOF. The header stage's outcomes (O28), the step of a sync skip (O29), and the header's tables with the frame
length (O32). -/

namespace Sys2Proof.Machine

/-! ## The header stage's tests in the bits of the word (30_encoding.md R210) -/

/-- The sync and validity tests together (41_frame_header.md R352, R353). -/
theorem validHeaderWord_iff {H : Word} :
    validHeaderWord H ↔ syncOk (headerOfWord H) = true ∧ headerValid (headerOfWord H) = true := by
  have hid : H.extractLsb' 19 1 = 1#1 ↔ H.getLsbD 19 = true := by
    simp [BitVec.eq_of_getLsbD_eq_iff]
  simp only [validHeaderWord, syncOk, headerValid, Bool.and_eq_true, decide_eq_true_eq, and_assoc, ← hid]
  rfl

theorem freeFormat_headerOfWord {H : Word} :
    freeFormat (headerOfWord H) = true ↔ H.extractLsb' 12 4 = 0#4 := decide_eq_true_iff

/-- The lock holds when there is none or it is the frame's own format (41_frame_header.md R358). -/
theorem not_lockBroken_iff {lock : Option Lock} {h : Header} :
    lockBroken lock h = false ↔ lock = none ∨ lock = some ⟨h.fs, h.nch⟩ := by
  cases lock <;> simp [lockBroken]

/-- Short input is a refill or the end of the stream by EOF alone (40_bitstream_reader.md R300, R307). -/
theorem shortOfInput_cases (s : State) :
    (s.eof = true ∧ shortOfInput s = .endOfStream) ∨ (s.eof = false ∧ shortOfInput s = .bufferExhausted) := by
  cases h : s.eof <;> simp [shortOfInput, h]

/-! ## The outcomes of the header stage, one equation each, in order (41_frame_header.md R350) -/

theorem headerStage_few {s : State} (h4 : ¬ 4 ≤ s.avail - s.pos) : headerStage s = shortOfInput s :=
  if_pos (not_ensure_iff.2 (Nat.lt_of_not_le h4))

section
variable {s : State} (h4 : 4 ≤ s.avail - s.pos)
include h4

theorem headerStage_invalid (hv : ¬ validHeaderWord (headerWordAt s)) : headerStage s = .syncSkip := by
  rw [validHeaderWord_iff, not_and] at hv
  cases hsync : syncOk (headerOfWord (headerWordAt s)) with
  | false => simp [headerStage, ensure_iff.2 h4, hsync]
  | true => simp [headerStage, ensure_iff.2 h4, hsync, hv hsync]

variable (hv : validHeaderWord (headerWordAt s))
include hv

theorem headerStage_free (hf : (headerWordAt s).extractLsb' 12 4 = 0#4) : headerStage s = .fatal .freeFormat := by
  obtain ⟨hsync, hvalid⟩ := validHeaderWord_iff.1 hv
  simp [headerStage, ensure_iff.2 h4, hsync, hvalid, freeFormat_headerOfWord.2 hf]

variable (hf : (headerWordAt s).extractLsb' 12 4 ≠ 0#4)
include hf

/-- Past the free-format test the format lock and the frame's length decide (41_frame_header.md R358, R359). -/
theorem headerStage_bitrate : headerStage s =
    if lockBroken s.lock (headerOfWord (headerWordAt s)) then .fatal .formatChange
    else if ensure s (headerOfWord (headerWordAt s)).frameLength = false then shortOfInput s
    else .frame (headerWordAt s) := by
  obtain ⟨hsync, hvalid⟩ := validHeaderWord_iff.1 hv
  have hfree : freeFormat (headerOfWord (headerWordAt s)) = false := by
    rw [← Bool.not_eq_true, freeFormat_headerOfWord]
    exact hf
  simp [headerStage, ensure_iff.2 h4, hsync, hvalid, hfree]

theorem headerStage_formatChange (hl : ¬ (s.lock = none ∨
    s.lock = some ⟨(headerOfWord (headerWordAt s)).fs, (headerOfWord (headerWordAt s)).nch⟩)) :
    headerStage s = .fatal .formatChange := by
  rw [← not_lockBroken_iff, Bool.not_eq_false] at hl
  rw [headerStage_bitrate h4 hv hf, if_pos hl]

variable (hl : s.lock = none ∨
  s.lock = some ⟨(headerOfWord (headerWordAt s)).fs, (headerOfWord (headerWordAt s)).nch⟩)
include hl

theorem headerStage_incomplete (hn : ¬ (headerOfWord (headerWordAt s)).frameLength ≤ s.avail - s.pos) :
    headerStage s = shortOfInput s := by
  simp [headerStage_bitrate h4 hv hf, not_lockBroken_iff.2 hl, not_ensure_iff.2 (Nat.lt_of_not_le hn)]

theorem headerStage_available (hn : (headerOfWord (headerWordAt s)).frameLength ≤ s.avail - s.pos) :
    headerStage s = .frame (headerWordAt s) := by
  simp [headerStage_bitrate h4 hv hf, not_lockBroken_iff.2 hl, ensure_iff.2 hn]

end

/-- Settles O28: a case for each rule of R350, which raises its outcome once the rules before it have raised none. -/
theorem headerStageOrder : Obligations.HeaderStageOrder := by
  intro s H h four locked candidate short
  refine ⟨rfl, ?_⟩
  by_cases h4 : four
  · by_cases hv : validHeaderWord H
    · by_cases hf : H.extractLsb' 12 4 = 0#4
      · simp [headerStage_free h4 hv hf, short, candidate, h4, hv, hf]
      · by_cases hl : locked
        · by_cases hn : h.frameLength ≤ s.avail - s.pos
          · simp [headerStage_available h4 hv hf hl hn, short, candidate, h4, hv, hf, hl, hn,
              eq_comm (a := headerWordAt s), H]
          · rcases shortOfInput_cases s with ⟨he, hs⟩ | ⟨he, hs⟩ <;>
              simp [headerStage_incomplete h4 hv hf hl hn, hs, he, short, candidate, h4, hv, hf, hl, hn,
                Nat.lt_of_not_le hn]
        · simp [headerStage_formatChange h4 hv hf hl, short, candidate, h4, hv, hf, hl]
    · simp [headerStage_invalid h4 hv, short, candidate, h4, hv]
  · rcases shortOfInput_cases s with ⟨he, hs⟩ | ⟨he, hs⟩ <;>
      simp [headerStage_few h4, hs, he, short, candidate, h4]

/-- Settles O29: the failed test makes the iteration a sync skip. -/
theorem syncSkipStep : Obligations.SyncSkipStep := by
  intro s hdec h4 hv
  have hskip : headerStage (tick s) = .syncSkip := headerStage_invalid h4 hv
  rw [engineStep_decoding hdec, iteration_skip hskip]
  rfl

/-! ## The header's tables (30_encoding.md R212 to R214; 41_frame_header.md R356) -/

/-- The bitrates of the fourteen indices that have one (30_encoding.md R212). -/
theorem bitrateTable_entries : ∀ b : BitVec 4, 1 ≤ b.toNat → b.toNat ≤ 14 → some (bitrateTable.getD b.toNat 0) =
    [32, 40, 48, 56, 64, 80, 96, 112, 128, 160, 192, 224, 256, 320][b.toNat - 1]? := by decide

/-- The floored quotients of R356 at the three sampling frequencies, by bitrate_index. -/
theorem bitrateTable_lengths : ∀ b : BitVec 4, 1 ≤ b.toNat → b.toNat ≤ 14 →
    some (144000 * bitrateTable.getD b.toNat 0 / 44100) =
      [104, 130, 156, 182, 208, 261, 313, 365, 417, 522, 626, 731, 835, 1044][b.toNat - 1]? ∧
    some (144000 * bitrateTable.getD b.toNat 0 / 48000) =
      [96, 120, 144, 168, 192, 240, 288, 336, 384, 480, 576, 672, 768, 960][b.toNat - 1]? ∧
    some (144000 * bitrateTable.getD b.toNat 0 / 32000) =
      [144, 180, 216, 252, 288, 360, 432, 504, 576, 720, 864, 1008, 1152, 1440][b.toNat - 1]? := by decide

theorem fs_of_zero {h : Header} (hs : h.samplingFrequency = 0#2) : h.fs = 44100 := by
  simp [Header.fs, hs, frequencyTable]

theorem fs_of_one {h : Header} (hs : h.samplingFrequency = 1#2) : h.fs = 48000 := by
  simp [Header.fs, hs, frequencyTable]

theorem fs_of_two {h : Header} (hs : h.samplingFrequency = 2#2) : h.fs = 32000 := by
  simp [Header.fs, hs, frequencyTable]

theorem frameLength_unpadded {h : Header} (hp : h.padding = 0#1) : h.frameLength = 144000 * h.kbps / h.fs := by
  simp [Header.frameLength, hp]

/-- Settles O32, by the tables' entries. -/
theorem frameLengthTable : Obligations.FrameLengthTable := by
  refine ⟨fun h hv hf => ⟨rfl, frameLength_bounds hv hf⟩, fun h hp hlo hhi => ?_, fun h => ?_⟩
  · obtain ⟨h441, h480, h320⟩ := bitrateTable_lengths h.bitrateIndex hlo hhi
    rw [frameLength_unpadded hp, Header.kbps]
    refine ⟨fun hs => ?_, fun hs => ?_, fun hs => ?_⟩
    · rwa [fs_of_zero hs]
    · rwa [fs_of_one hs]
    · rwa [fs_of_two hs]
  · exact ⟨bitrateTable_entries h.bitrateIndex, fs_of_zero, fs_of_one, fs_of_two, fun hm => if_pos hm,
      fun hm => if_neg hm, decide_eq_true_iff, by simp [Header.msStereo], by simp [Header.intensityStereo]⟩

end Sys2Proof.Machine
end

section
/-! PROOF. Where each scalefactor is read, what is copied, and what is not transmitted (O53). -/

namespace Sys2Proof.Machine

/-! ## Reading numbers at the cursor -/

theorem Cursor.next_eq (c : Cursor) : c.next = (c.rest.getD 0 false, ⟨c.pos + 1, c.rest.drop 1⟩) := by
  obtain ⟨p, _ | ⟨b, bs⟩⟩ := c <;> rfl

/-- The number read below `acc`, bit by bit from the cursor on (00_scope.md R11). -/
theorem Cursor.getBitsFrom_eq (acc n : Nat) (c : Cursor) : Cursor.getBitsFrom acc n c =
    ((List.range n).foldl (fun v k => 2 * v + (c.rest.getD k false).toNat) acc, ⟨c.pos + n, c.rest.drop n⟩) := by
  induction n generalizing acc c with
  | zero => rfl
  | succ n ih =>
    rw [Cursor.getBitsFrom, ih, Cursor.next_eq, List.range_succ_eq_map, List.foldl_cons, List.foldl_map]
    simp [List.getD_eq_getElem?_getD, Nat.add_assoc, Nat.add_comm 1]

/-! ## How many bits the scalefactors take -/

/-- A long band takes its width, or nothing where it is copied (42_side_info_main_data.md R423). -/
theorem readLong_pos (copied : Nat → Bool) (prev : Scalefac) (g : GranuleInfo) (l : List Nat) (c : Cursor) :
    (readLong copied prev g l c).2.pos =
      c.pos + (l.map fun sfb => if copied sfb then 0 else longWidthBits g sfb).sum := by
  induction l generalizing c with
  | nil => rfl
  | cons sfb l ih => by_cases h : copied sfb <;> simp [readLong, h, ih, Nat.add_assoc]

theorem readLong_length (copied : Nat → Bool) (prev : Scalefac) (g : GranuleInfo) (l : List Nat) (c : Cursor) :
    (readLong copied prev g l c).1.length = l.length := by
  induction l generalizing c with
  | nil => rfl
  | cons sfb l ih => by_cases h : copied sfb <;> simp [readLong, h, ih]

/-- A short band takes its width for each of the three windows (42_side_info_main_data.md R424, R425). -/
theorem readShort_pos (g : GranuleInfo) (l : List Nat) (c : Cursor) :
    (readShort g l c).2.pos = c.pos + 3 * (l.map (shortWidthBits g)).sum := by
  induction l generalizing c with
  | nil => rfl
  | cons sfb l ih =>
    simp only [readShort, ih, Cursor.getBits_pos, List.map_cons, List.sum_cons]
    omega

theorem readShort_length (g : GranuleInfo) (l : List Nat) (c : Cursor) :
    (readShort g l c).1.length = 3 * l.length := (readShort_spec g l c).1

/-! ## The three layouts of the scalefactors, one equation each (42_side_info_main_data.md R423 to R427) -/

/-- scfsi asks for band group `band` to be copied (42_side_info_main_data.md R423). -/
def copiedGroup (gr scfsi band : Nat) : Bool := decide (gr = 1) && scfsiBit scfsi band

section
variable (gr scfsi : Nat) (prev : Scalefac) {g : GranuleInfo} (c : Cursor)

theorem readScalefac_long (h : g.blockType ≠ 2) : readScalefac gr scfsi prev g c =
    (⟨fillTo 22 0 (readLong (fun sfb => copiedGroup gr scfsi (scfsiBand sfb)) prev g (List.range 21) c).1,
      fillTo 39 0 []⟩, (readLong (fun sfb => copiedGroup gr scfsi (scfsiBand sfb)) prev g (List.range 21) c).2) :=
  if_neg h

theorem readScalefac_short (h : g.blockType = 2) (hm : g.mixedBlock = false) : readScalefac gr scfsi prev g c =
    (⟨fillTo 22 0 [], fillTo 39 0 (readShort g (List.range 12) c).1⟩, (readShort g (List.range 12) c).2) := by
  simp [readScalefac, h, hm]

/-- The long bands 0 to 7 of a mixed block. -/
abbrev mixedLong (prev : Scalefac) (g : GranuleInfo) (c : Cursor) : List Nat × Cursor :=
  readLong (fun _ => false) prev g (List.range 8) c

/-- The short bands 3 to 11 of a mixed block. -/
abbrev mixedShort (prev : Scalefac) (g : GranuleInfo) (c : Cursor) : List Nat × Cursor :=
  readShort g (List.range' 3 9) (mixedLong prev g c).2

theorem readScalefac_mixed (h : g.blockType = 2) (hm : g.mixedBlock = true) : readScalefac gr scfsi prev g c =
    (⟨fillTo 22 0 (mixedLong prev g c).1, fillTo 39 0 (List.replicate 9 0 ++ (mixedShort prev g c).1)⟩,
      (mixedShort prev g c).2) := by
  simp [readScalefac, h, hm]

end

/-! ## The entries that each layout holds -/

theorem longAt_fillTo {l : List Nat} {short : Vector Nat 39} {sfb : Nat} (h : sfb < 22) :
    Scalefac.longAt ⟨fillTo 22 0 l, short⟩ sfb = l.getD sfb 0 := fillTo_getD 22 0 l sfb h

theorem shortAt_fillTo {l : List Nat} {long : Vector Nat 22} {sfb w : Nat} (h : 3 * sfb + w < 39) :
    Scalefac.shortAt ⟨long, fillTo 39 0 l⟩ sfb w = l.getD (3 * sfb + w) 0 := fillTo_getD 39 0 l _ h

/-- The entries past the list that an array is filled from. -/
theorem fillTo_getD_eq_default {α : Type} {n i : Nat} {d : α} {l : List α} (h : i < n) (hl : l.length ≤ i) :
    (fillTo n d l).toList.getD i d = d := by
  rw [fillTo_getD n d l i h, List.getD_eq_default _ _ hl]

/-! ## The cursors between the reads -/

/-- The cursors `d` up to number `m`, then the cursors `e`. -/
def joinCursors (m : Nat) (d e : Nat → Cursor) (k : Nat) : Cursor := if k < m then d k else e (k - m)

theorem joinCursors_left {m k : Nat} {d e : Nat → Cursor} (hd : d m = e 0) (h : k ≤ m) : joinCursors m d e k = d k := by
  rcases Nat.lt_or_eq_of_le h with hlt | rfl
  · exact if_pos hlt
  · simp [joinCursors, hd]

theorem joinCursors_right (m k : Nat) (d e : Nat → Cursor) : joinCursors m d e (m + k) = e k := by
  simp [joinCursors]

theorem getD_range {n k : Nat} (h : k < n) : (List.range n).getD k 0 = k := by
  rw [List.getD_eq_getElem?_getD, List.getElem?_range h, Option.getD_some]

section
variable {gr scfsi : Nat} {prev : Scalefac} {g : GranuleInfo} {c : Cursor}

/-- The long layout: a copied band takes granule 0's value and reads nothing. -/
theorem readScalefac_long_reads (h : g.blockType ≠ 2) :
    ∃ d : Nat → Cursor, d 0 = c ∧ d 21 = (readScalefac gr scfsi prev g c).2 ∧ ∀ sfb, sfb < 21 →
      if copiedGroup gr scfsi (scfsiBand sfb) then
        Scalefac.longAt (readScalefac gr scfsi prev g c).1 sfb = Scalefac.longAt prev sfb ∧ d (sfb + 1) = d sfb
      else (d sfb).getBits (longWidthBits g sfb) =
        (Scalefac.longAt (readScalefac gr scfsi prev g c).1 sfb, d (sfb + 1)) := by
  obtain ⟨d, first, last, reads⟩ :=
    readLong_spec (fun sfb => copiedGroup gr scfsi (scfsiBand sfb)) prev g (List.range 21) c
  rw [List.length_range] at last reads
  rw [readScalefac_long gr scfsi prev c h]
  refine ⟨d, first, last, fun sfb hs => ?_⟩
  have read := reads sfb hs
  rw [getD_range hs] at read
  rwa [longAt_fillTo (by omega)]

/-- The short layout: twelve bands, window after window. -/
theorem readScalefac_short_reads (h : g.blockType = 2) (hm : g.mixedBlock = false) :
    ∃ d : Nat → Cursor, d 0 = c ∧ d 36 = (readScalefac gr scfsi prev g c).2 ∧ ∀ sfb w, sfb < 12 → w < 3 →
      (d (3 * sfb + w)).getBits (shortWidthBits g sfb) =
        (Scalefac.shortAt (readScalefac gr scfsi prev g c).1 sfb w, d (3 * sfb + w + 1)) := by
  obtain ⟨-, d, first, last, reads⟩ := readShort_spec g (List.range 12) c
  rw [List.length_range] at last reads
  rw [readScalefac_short gr scfsi prev c h hm]
  refine ⟨d, first, last, fun sfb w hs hw => ?_⟩
  have read := reads sfb w hs hw
  rw [getD_range hs] at read
  rwa [shortAt_fillTo (by omega)]

/-- The mixed layout: long bands 0 to 7, then short bands 3 to 11. -/
theorem readScalefac_mixed_reads (h : g.blockType = 2) (hm : g.mixedBlock = true) :
    ∃ d : Nat → Cursor, d 0 = c ∧ d 35 = (readScalefac gr scfsi prev g c).2 ∧
      (∀ sfb, sfb < 8 → (d sfb).getBits (slen1 g) =
        (Scalefac.longAt (readScalefac gr scfsi prev g c).1 sfb, d (sfb + 1))) ∧
      ∀ sfb w, sfb < 9 → w < 3 → (d (8 + 3 * sfb + w)).getBits (shortWidthBits g (sfb + 3)) =
        (Scalefac.shortAt (readScalefac gr scfsi prev g c).1 (sfb + 3) w, d (8 + 3 * sfb + w + 1)) := by
  obtain ⟨d, firstLong, lastLong, longReads⟩ := readLong_spec (fun _ => false) prev g (List.range 8) c
  obtain ⟨-, e, firstShort, lastShort, shortReads⟩ := readShort_spec g (List.range' 3 9) (mixedLong prev g c).2
  rw [List.length_range] at lastLong longReads
  rw [List.length_range'] at lastShort shortReads
  have hjoin : d 8 = e 0 := lastLong.trans firstShort.symm
  rw [readScalefac_mixed gr scfsi prev c h hm]
  refine ⟨joinCursors 8 d e, (joinCursors_left hjoin (by omega)).trans firstLong,
    (joinCursors_right 8 27 d e).trans lastShort, fun sfb hs => ?_, fun sfb w hs hw => ?_⟩
  · have read := longReads sfb hs
    rw [getD_range hs] at read
    rw [joinCursors_left hjoin (by omega), joinCursors_left hjoin (by omega), longAt_fillTo (by omega)]
    simpa [longWidthBits, show sfb ≤ 10 by omega] using read
  · have read := shortReads sfb w hs hw
    rw [List.getD_eq_getElem?_getD, List.getElem?_range' hs] at read
    rw [Nat.add_assoc, Nat.add_assoc 8, joinCursors_right, joinCursors_right, shortAt_fillTo (by omega),
      List.getD_append_right _ _ _ _ (by simp only [List.length_replicate]; omega), List.length_replicate,
      show 3 * (sfb + 3) + w - 9 = 3 * sfb + w by omega]
    simpa [Nat.add_comm] using read

end

/-! ## The bits that each layout takes -/

section
variable (gr scfsi : Nat) (prev : Scalefac) {g : GranuleInfo} (c : Cursor)

/-- The `n` bands of a group that is copied as a whole or not at all. -/
theorem ite_zero_mul (copied : Bool) (n width : Nat) :
    (if copied then 0 else n * width) = n * (if copied then 0 else width) := by
  cases copied <;> rfl

theorem readScalefac_long_pos (h : g.blockType ≠ 2) : (readScalefac gr scfsi prev g c).2.pos =
    c.pos + ((if copiedGroup gr scfsi 0 then 0 else 6 * slen1 g) + (if copiedGroup gr scfsi 1 then 0 else 5 * slen1 g) +
      (if copiedGroup gr scfsi 2 then 0 else 5 * slen2 g) + (if copiedGroup gr scfsi 3 then 0 else 5 * slen2 g)) := by
  rw [readScalefac_long gr scfsi prev c h, readLong_pos]
  simp only [List.range, List.range.loop, List.map_cons, List.map_nil, List.sum_cons, List.sum_nil, scfsiBand,
    longWidthBits, Nat.reduceLeDiff, if_true, if_false, ite_zero_mul]
  ring

theorem readScalefac_short_pos (h : g.blockType = 2) (hm : g.mixedBlock = false) :
    (readScalefac gr scfsi prev g c).2.pos = c.pos + (18 * slen1 g + 18 * slen2 g) := by
  rw [readScalefac_short gr scfsi prev c h hm, readShort_pos]
  simp only [List.range, List.range.loop, List.map_cons, List.map_nil, List.sum_cons, List.sum_nil, shortWidthBits,
    Nat.reduceLeDiff, if_true, if_false]
  ring

theorem readScalefac_mixed_pos (h : g.blockType = 2) (hm : g.mixedBlock = true) :
    (readScalefac gr scfsi prev g c).2.pos = c.pos + (17 * slen1 g + 18 * slen2 g) := by
  rw [readScalefac_mixed gr scfsi prev c h hm, readShort_pos, readLong_pos]
  simp only [List.range, List.range.loop, List.range', List.map_cons, List.map_nil, List.sum_cons, List.sum_nil,
    shortWidthBits, longWidthBits, Nat.reduceLeDiff, Nat.reduceAdd, Bool.false_eq_true, if_true, if_false]
  ring

end

/-! ## What no layout transmits (42_side_info_main_data.md R427; 10_state.md R97) -/

section
variable (gr scfsi : Nat) (prev : Scalefac) {g : GranuleInfo} (c : Cursor)

/-- The long layout transmits no short band and not long band 21. -/
theorem readScalefac_long_zeros (h : g.blockType ≠ 2) :
    Scalefac.longAt (readScalefac gr scfsi prev g c).1 21 = 0 ∧
      ∀ k, k < 39 → (readScalefac gr scfsi prev g c).1.short.toList.getD k 0 = 0 := by
  rw [readScalefac_long gr scfsi prev c h]
  exact ⟨fillTo_getD_eq_default (by decide) (by simp [readLong_length]),
    fun k hk => fillTo_getD_eq_default hk (Nat.zero_le k)⟩

/-- The short layout transmits no long band and not short band 12. -/
theorem readScalefac_short_zeros (h : g.blockType = 2) (hm : g.mixedBlock = false) :
    (∀ sfb, sfb < 22 → Scalefac.longAt (readScalefac gr scfsi prev g c).1 sfb = 0) ∧
      ∀ w, w < 3 → Scalefac.shortAt (readScalefac gr scfsi prev g c).1 12 w = 0 := by
  rw [readScalefac_short gr scfsi prev c h hm]
  exact ⟨fun sfb hs => fillTo_getD_eq_default hs (Nat.zero_le sfb), fun w hw =>
    fillTo_getD_eq_default (by omega) (by rw [readShort_length, List.length_range]; omega)⟩

/-- The mixed layout transmits neither long bands 8 to 21 nor short bands 0 to 2 and 12. -/
theorem readScalefac_mixed_zeros (h : g.blockType = 2) (hm : g.mixedBlock = true) :
    (∀ sfb, 8 ≤ sfb → sfb < 22 → Scalefac.longAt (readScalefac gr scfsi prev g c).1 sfb = 0) ∧
      (∀ k, k < 9 → (readScalefac gr scfsi prev g c).1.short.toList.getD k 0 = 0) ∧
      ∀ w, w < 3 → Scalefac.shortAt (readScalefac gr scfsi prev g c).1 12 w = 0 := by
  rw [readScalefac_mixed gr scfsi prev c h hm]
  refine ⟨fun sfb h8 hs => fillTo_getD_eq_default hs (by rwa [readLong_length]), fun k hk => ?_,
    fun w hw => fillTo_getD_eq_default (by omega) ?_⟩
  · rw [fillTo_getD 39 0 _ k (by omega), List.getD_append _ _ _ _ (by simpa using hk), List.getD_replicate _ hk]
  · rw [List.length_append, readShort_length, List.length_replicate, List.length_range']
    omega

end

/-- Settles O53: each layout's equation gives its length, its reads with the cursors between them, and its zeros. -/
theorem scalefactorReads : Obligations.ScalefactorReads := by
  intro gr scfsi prev g c r s1 s2 copied band
  refine ⟨fun n => Cursor.getBitsFrom_eq 0 n c, readScalefac_short_pos gr scfsi prev c,
    readScalefac_mixed_pos gr scfsi prev c, readScalefac_long_pos gr scfsi prev c, readScalefac_long_reads,
    readScalefac_short_reads, readScalefac_mixed_reads, ?_⟩
  by_cases h : g.blockType = 2
  · cases hm : g.mixedBlock with
    | false =>
      obtain ⟨long, short⟩ := readScalefac_short_zeros gr scfsi prev c h hm
      exact ⟨long 21 (by decide), short, fun hne => absurd h hne, fun _ _ => long, fun _ ht => absurd ht (by decide)⟩
    | true =>
      obtain ⟨long, low, short⟩ := readScalefac_mixed_zeros gr scfsi prev c h hm
      exact ⟨long 21 (by decide) (by decide), short, fun hne => absurd h hne, fun _ hf => absurd hf (by decide),
        fun _ _ => ⟨low, long⟩⟩
  · obtain ⟨long, short⟩ := readScalefac_long_zeros gr scfsi prev c h
    exact ⟨long, fun w hw => short _ (by omega), fun _ => short, fun he => absurd he h, fun he => absurd he h⟩

end Sys2Proof.Machine
end

section
/-! PROOF. Every line of a granule lies in the place that its layout gives it (O54). -/

namespace Sys2Proof.Machine

/-! ## The bands' bounds (42_side_info_main_data.md R420) -/

/-- The first band whose upper bound lies above the line holds it. -/
theorem firstBand_holds {bound : Nat → Nat} {n i d : Nat} (hlow : bound 0 ≤ i) (hhigh : i < bound n) (hn : 0 < n) :
    let s := ((List.range n).find? fun s => i < bound (s + 1)).getD d
    s < n ∧ bound s ≤ i ∧ i < bound (s + 1) := by
  cases hf : (List.range n).find? fun s => i < bound (s + 1) with
  | none =>
    have noneAbove := List.find?_eq_none.1 hf (n - 1) (List.mem_range.2 (by omega))
    rw [decide_eq_true_eq, Nat.sub_add_cancel hn] at noneAbove
    exact absurd hhigh noneAbove
  | some s =>
    obtain ⟨hholds, hmem, hbefore⟩ := List.find?_range_eq_some.1 hf
    refine ⟨List.mem_range.1 hmem, ?_, of_decide_eq_true hholds⟩
    cases s with
    | zero => exact hlow
    | succ s => simpa using hbefore s (Nat.lt_succ_self s)

theorem longBandOf_holds {freq i : Nat} (hfreq : freq < 3) (hi : i < 576) :
    longBandOf freq i < 22 ∧ sfbL freq (longBandOf freq i) ≤ i ∧ i < sfbL freq (longBandOf freq i + 1) := by
  have ends : ∀ freq < 3, sfbL freq 0 = 0 ∧ sfbL freq 22 = 576 := by decide
  obtain ⟨first, last⟩ := ends freq hfreq
  exact firstBand_holds (bound := sfbL freq) (by omega) (by omega) (by decide)

/-- The lines below 36 are those of long bands 0 to 7. -/
theorem longBandOf_lt_eight {freq i : Nat} (hfreq : freq < 3) (hi : i < 36) : longBandOf freq i < 8 := by
  obtain ⟨hband, hlow, -⟩ := longBandOf_holds hfreq (show i < 576 by omega)
  have high : ∀ freq < 3, ∀ s < 22, 8 ≤ s → 36 ≤ sfbL freq s := by decide
  by_contra h
  have := high freq hfreq _ hband (by omega)
  omega

theorem shortBandOf_holds {freq i : Nat} (hfreq : freq < 3) (hi : i < 576) :
    shortBandOf freq i < 13 ∧ 3 * sfbS freq (shortBandOf freq i) ≤ i ∧
      i < 3 * sfbS freq (shortBandOf freq i + 1) := by
  have ends : ∀ freq < 3, 3 * sfbS freq 0 = 0 ∧ 3 * sfbS freq 13 = 576 := by decide
  obtain ⟨first, last⟩ := ends freq hfreq
  exact firstBand_holds (bound := fun s => 3 * sfbS freq s) (by omega) (by omega) (by decide)

/-- The lines from 36 on are those of short bands 3 and up. -/
theorem three_le_shortBandOf {freq i : Nat} (hfreq : freq < 3) (hi : i < 576) (h36 : 36 ≤ i) :
    3 ≤ shortBandOf freq i := by
  obtain ⟨-, -, hhigh⟩ := shortBandOf_holds hfreq hi
  have low : ∀ freq < 3, ∀ s < 3, 3 * sfbS freq (s + 1) ≤ 36 := by decide
  by_contra h
  have := low freq hfreq (shortBandOf freq i) (by omega)
  omega

/-- A line's number is made of its short band, window and frequency. -/
theorem shortPlace_eq {freq i : Nat} (hfreq : freq < 3) (hi : i < 576) :
    ∃ w f, shortPlace freq i = .short (shortBandOf freq i) w f ∧ w < 3 ∧ f < shortWidth freq (shortBandOf freq i) ∧
      i = 3 * sfbS freq (shortBandOf freq i) + w * shortWidth freq (shortBandOf freq i) + f := by
  obtain ⟨-, hlow, hhigh⟩ := shortBandOf_holds hfreq hi
  refine ⟨_, _, rfl, ?_⟩
  have hwidth : shortWidth freq (shortBandOf freq i) =
      sfbS freq (shortBandOf freq i + 1) - sfbS freq (shortBandOf freq i) := rfl
  generalize shortWidth freq (shortBandOf freq i) = width at *
  refine ⟨Nat.div_lt_of_lt_mul (by omega), Nat.mod_lt _ (by omega), ?_⟩
  rw [Nat.add_assoc, Nat.div_add_mod']
  omega

/-! ## The three line layouts (42_side_info_main_data.md R421) -/

section
variable {freq i : Nat} {g : GranuleInfo}

theorem linePlace_long (h : g.blockType ≠ 2) : linePlace freq g i = .long (longBandOf freq i) := if_neg h

theorem linePlace_mixed_low (h : g.blockType = 2) (hm : g.mixedBlock = true) (hi : i < 36) :
    linePlace freq g i = .long (longBandOf freq i) := by
  simp [linePlace, h, hm, hi]

theorem linePlace_short (h : g.blockType = 2) (hm : g.mixedBlock = false ∨ 36 ≤ i) :
    linePlace freq g i = shortPlace freq i := by
  rcases hm with hm | hm
  · simp [linePlace, h, hm]
  · simp [linePlace, h, Nat.not_lt.2 hm]

end

/-- Settles O54: the bands' bounds cover the lines, so that the band found for a line holds it. -/
theorem lineLayout : Obligations.LineLayout := by
  refine ⟨fun freq hfreq => ?_, fun freq i g hfreq hi => ?_⟩
  · interval_cases freq <;> exact ⟨rfl, rfl, fun _ => rfl⟩
  · have meet : ∀ freq < 3, sfbL freq 8 = 36 ∧ 3 * sfbS freq 3 = 36 := by decide
    obtain ⟨hlong, hshort⟩ := meet freq hfreq
    obtain ⟨hband, hlow, hhigh⟩ := longBandOf_holds hfreq hi
    refine ⟨hlong, hshort, fun h => ⟨_, linePlace_long h, hband, hlow, hhigh⟩,
      fun h hm h36 => ⟨_, linePlace_mixed_low h hm h36, longBandOf_lt_eight hfreq h36, hlow, hhigh⟩, fun h hm => ?_⟩
    obtain ⟨w, f, hplace, hw, hf, hline⟩ := shortPlace_eq hfreq hi
    refine ⟨_, w, f, (linePlace_short h hm).trans hplace, (shortBandOf_holds hfreq hi).1, hw, hf, hline, fun ht => ?_⟩
    exact three_le_shortBandOf hfreq hi (hm.resolve_left (by simp [ht]))

end Sys2Proof.Machine
end

section
/-! PROOF. When one granule and channel fails and for which cause, and which lines its pairs and quadruples write
(O36). -/

namespace Sys2Proof.Machine

/-! ## When no codeword stands at the cursor -/

/-- The next `n` bits at the cursor, those past the end being 0 (42_side_info_main_data.md R416). -/
def Cursor.ahead (c : Cursor) (n : Nat) : List Bool := (List.range n).map fun i => c.rest.getD i false

@[simp] theorem Cursor.length_ahead (c : Cursor) (n : Nat) : (c.ahead n).length = n := by simp [Cursor.ahead]

theorem Cursor.ahead_succ (c : Cursor) (n : Nat) : c.ahead (n + 1) = c.next.1 :: c.next.2.ahead n := by
  simp [Cursor.ahead, Cursor.next_eq, List.range_succ_eq_map, List.getD_eq_getElem?_getD]

/-- A list of bits stands at the cursor when each of its bits does. -/
theorem Cursor.eq_ahead_iff (c : Cursor) (l : List Bool) :
    l = c.ahead l.length ↔ ∀ i, i < l.length → c.rest.getD i false = l.getD i false := by
  constructor
  · intro h i hi
    rw [h, List.getD_eq_getElem?_getD (l := c.ahead _)]
    simp [Cursor.ahead, hi]
  · intro h
    refine List.ext_getElem (by simp) fun i hi _ => ?_
    rw [← List.getD_eq_getElem l false hi, ← h i hi]
    simp [Cursor.ahead]

/-- No codeword is matched when none is what was read so far and one to `n` more bits (30_encoding.md R225). -/
theorem matchCode_eq_none_iff {codes : List Code} {n : Nat} {got : List Bool} {c : Cursor} :
    matchCode codes n got c = none ↔ ∀ k ∈ codes, ∀ m, m < n → k.bits ≠ got ++ c.ahead (m + 1) := by
  induction n generalizing got c with
  | zero => simp [matchCode]
  | succ n ih =>
    have later (m : Nat) : got ++ [c.next.1] ++ c.next.2.ahead (m + 1) = got ++ c.ahead (m + 1 + 1) := by
      rw [Cursor.ahead_succ c, List.append_assoc, List.singleton_append]
    have first : got ++ [c.next.1] = got ++ c.ahead (0 + 1) := by rw [Cursor.ahead_succ c]; rfl
    unfold matchCode
    cases hf : codes.find? (fun k => k.bits == got ++ [c.next.1]) with
    | some j =>
      have found := List.find?_some hf
      rw [beq_iff_eq, first] at found
      exact iff_of_false (by simp) fun h => h j (List.mem_of_find?_eq_some hf) 0 (Nat.succ_pos n) found
    | none =>
      refine ih.trans (forall₂_congr fun k hk => ?_)
      have differs : k.bits ≠ got ++ c.ahead (0 + 1) := first ▸ by simpa using List.find?_eq_none.1 hf k hk
      simp only [later]
      refine ⟨fun h m hm => ?_, fun h m hm => h (m + 1) (Nat.succ_lt_succ hm)⟩
      cases m with
      | zero => exact differs
      | succ m => exact h m (Nat.lt_of_succ_lt_succ hm)

/-- With as many bits as the longest codeword has, none is matched exactly when none stands at the cursor. -/
theorem matchCode_longest_eq_none_iff {codes : List Code} {c : Cursor} (hne : ∀ k ∈ codes, k.bits ≠ []) :
    matchCode codes (longestCode codes) [] c = none ↔ ∀ k ∈ codes, k.bits ≠ c.ahead k.bits.length := by
  refine matchCode_eq_none_iff.trans (forall₂_congr fun k hk => ⟨fun h => ?_, fun h m _ he => h ?_⟩)
  · have hpos := List.length_pos_iff.2 (hne k hk)
    have hlen := length_le_longestCode hk
    simpa [Nat.sub_add_cancel hpos] using h (k.bits.length - 1) (by omega)
  · rw [List.nil_append] at he
    rw [congrArg List.length he, Cursor.length_ahead]
    exact he

theorem decodePair_badHuffcode_iff {t : Nat} {c : Cursor} (ht : t ≠ 0) : decodePair t c = .error .badHuffcode ↔
    matchCode (codeSet (codeSetNumber t)) (longestCode (codeSet (codeSetNumber t))) [] c = none := by
  simp only [decodePair, if_neg ht]
  cases matchCode (codeSet (codeSetNumber t)) (longestCode (codeSet (codeSetNumber t))) [] c <;> simp

/-- A pair has no codeword when every codeword of its table differs in some bit from those at the cursor
(43_huffman.md R459). -/
theorem decodePair_badHuffcode_iff_differ {t : Nat} {c : Cursor} (ht : t ≠ 0) :
    decodePair t c = .error .badHuffcode ↔ ∀ k ∈ codeSet (codeSetNumber t), ∃ i, i < k.bits.length ∧
      c.rest.getD i false ≠ k.bits.getD i false := by
  have hne (k : Code) (hk : k ∈ codeSet (codeSetNumber t)) : k.bits ≠ [] :=
    codeSet_bits_ne_nil (fun h => by simp [h, codeSet] at hk) hk
  rw [decodePair_badHuffcode_iff ht, matchCode_longest_eq_none_iff hne]
  refine forall₂_congr fun k _ => ?_
  rw [ne_eq, Cursor.eq_ahead_iff]
  push Not
  rfl

/-! ## The pairs that the big_values loop reads -/

/-- The sequence that starts with `x` and goes on with `f`. -/
def prepend {α : Type} (x : α) (f : Nat → α) : Nat → α
  | 0     => x
  | k + 1 => f k

/-- The first `n` pairs `v` are read inside the part, pair `j` with table `select j` at cursor `c j`
(43_huffman.md R456, R460). -/
def PairsRead (select : Nat → Nat) (partEnd : Nat) (start : Cursor) (c : Nat → Cursor) (v : Nat → Int × Int) (n : Nat) :
    Prop :=
  c 0 = start ∧ ∀ j, j < n → decodePair (select j) (c j) = .ok (v j, c (j + 1)) ∧ (c (j + 1)).pos ≤ partEnd

theorem PairsRead.cons {select : Nat → Nat} {partEnd n : Nat} {start c1 : Cursor} {c : Nat → Cursor} {x : Int × Int}
    {v : Nat → Int × Int} (h : PairsRead (fun j => select (j + 1)) partEnd c1 c v n)
    (hx : decodePair (select 0) start = .ok (x, c1)) (hle : c1.pos ≤ partEnd) :
    PairsRead select partEnd start (prepend start c) (prepend x v) (n + 1) := by
  obtain ⟨rfl, hread⟩ := h
  refine ⟨rfl, fun j hj => ?_⟩
  cases j with
  | zero => exact ⟨hx, hle⟩
  | succ j => exact hread j (Nat.lt_of_succ_lt_succ hj)

theorem PairsRead.tail {select : Nat → Nat} {partEnd n : Nat} {start : Cursor} {c : Nat → Cursor}
    {v : Nat → Int × Int} (h : PairsRead select partEnd start c v (n + 1)) :
    PairsRead (fun j => select (j + 1)) partEnd (c 1) (fun j => c (j + 1)) (fun j => v (j + 1)) n :=
  ⟨rfl, fun j hj => h.2 (j + 1) (Nat.succ_lt_succ hj)⟩

/-- The pair at cursor `c`, read with table `t`, makes the loop fail with cause `e`: it has no codeword, or it
ends beyond the part. -/
def PairFails (t partEnd : Nat) (c : Cursor) (e : Cause) : Prop :=
  decodePair t c = .error e ∨ (e = .huffmanOverrun ∧ ∃ x c1, decodePair t c = .ok (x, c1) ∧ partEnd < c1.pos)

theorem pairFails_badHuffcode_iff {t partEnd : Nat} {c : Cursor} :
    PairFails t partEnd c .badHuffcode ↔ decodePair t c = .error .badHuffcode := by
  simp [PairFails]

theorem pairFails_huffmanOverrun_iff {t partEnd : Nat} {c : Cursor} :
    PairFails t partEnd c .huffmanOverrun ↔ ∃ x c1, decodePair t c = .ok (x, c1) ∧ partEnd < c1.pos := by
  refine ⟨fun h => ?_, fun h => .inr ⟨rfl, h⟩⟩
  rcases h with h | ⟨-, h⟩
  · cases decodePair_error h
  · exact h

section
variable {table : Nat → Nat} {partEnd n i : Nat} {c0 : Cursor} {e : Cause}

theorem bigValuesLoop_fails (h : PairFails (table i) partEnd c0 e) :
    bigValuesLoop table partEnd (n + 1) i c0 = .error e := by
  rcases h with h | ⟨rfl, x, c1, h, hover⟩
  · simp only [bigValuesLoop, h]
  · simp only [bigValuesLoop, h, if_pos hover]

/-- Past a pair inside the part the loop fails exactly where the rest of it does. -/
theorem bigValuesLoop_continues {c1 : Cursor} {x : Int × Int} (h : decodePair (table i) c0 = .ok (x, c1))
    (hle : c1.pos ≤ partEnd) : bigValuesLoop table partEnd (n + 1) i c0 = .error e ↔
      bigValuesLoop table partEnd n (i + 2) c1 = .error e := by
  simp only [bigValuesLoop, h, if_neg (Nat.not_lt.2 hle)]
  cases bigValuesLoop table partEnd n (i + 2) c1 <;> simp

/-- A pair fails, or lies inside the part. -/
theorem pairFails_or_read (t partEnd : Nat) (c : Cursor) :
    (∃ e, PairFails t partEnd c e) ∨ ∃ x c1, decodePair t c = .ok (x, c1) ∧ c1.pos ≤ partEnd := by
  cases h : decodePair t c with
  | error e => exact .inl ⟨e, .inl h⟩
  | ok r =>
    rcases Nat.lt_or_ge partEnd r.2.pos with hover | hle
    · exact .inl ⟨_, .inr ⟨rfl, r.1, r.2, h, hover⟩⟩
    · exact .inr ⟨r.1, r.2, rfl, hle⟩

/-- The loop fails at the first pair that fails, after pairs inside the part (43_huffman.md R459, R460). -/
theorem bigValuesLoop_error_iff : bigValuesLoop table partEnd n i c0 = .error e ↔
    ∃ c v k, PairsRead (fun j => table (i + 2 * j)) partEnd c0 c v k ∧ k < n ∧
      PairFails (table (i + 2 * k)) partEnd (c k) e := by
  induction n generalizing i c0 with
  | zero => simp [bigValuesLoop]
  | succ n ih =>
    have shift (j : Nat) : table (i + 2 + 2 * j) = table (i + 2 * (j + 1)) := congrArg table (by omega)
    constructor
    · intro h
      rcases pairFails_or_read (table i) partEnd c0 with ⟨e', hfail⟩ | ⟨x, c1, hread, hle⟩
      · cases h.symm.trans (bigValuesLoop_fails hfail)
        exact ⟨fun _ => c0, fun _ => default, 0, ⟨rfl, fun j hj => absurd hj (Nat.not_lt_zero j)⟩, Nat.succ_pos n,
          hfail⟩
      · obtain ⟨c, v, k, hpairs, hk, hfail⟩ := ih.1 ((bigValuesLoop_continues hread hle).1 h)
        simp only [shift] at hpairs hfail
        exact ⟨prepend c0 c, prepend x v, k + 1,
          PairsRead.cons (select := fun j => table (i + 2 * j)) hpairs hread hle,
          Nat.succ_lt_succ hk, hfail⟩
    · rintro ⟨c, v, k, hpairs, hk, hfail⟩
      cases k with
      | zero => exact bigValuesLoop_fails (hpairs.1 ▸ hfail)
      | succ k =>
        obtain ⟨hread, hle⟩ := hpairs.2 0 (Nat.succ_pos k)
        have hrest := hpairs.tail
        rw [hpairs.1] at hread
        simp only [← shift] at hrest hfail
        exact (bigValuesLoop_continues hread hle).2 (ih.2 ⟨_, _, k, hrest, Nat.lt_of_succ_lt_succ hk, hfail⟩)

end

/-! ## The checks of a part, in order -/

/-- A region that holds a pair selects table 4 or 14 (43_huffman.md R451, R453). -/
theorem badTables_iff {freq : Nat} {g : GranuleInfo} : badTables freq g = true ↔
    (0 < regionBound1 freq g ∧ (g.tableSelect0 = 4 ∨ g.tableSelect0 = 14)) ∨
      (regionBound1 freq g < regionBound2 freq g ∧ (g.tableSelect1 = 4 ∨ g.tableSelect1 = 14)) ∨
      (regionBound2 freq g < bv2 g ∧ (g.tableSelect2 = 4 ∨ g.tableSelect2 = 14)) := by
  simp [badTables, missingTable, or_assoc]

section
variable {freq gr scfsi start : Nat} {prev : Scalefac} {g : GranuleInfo} {bits : List Bool}

/-- The cursor after a part's scalefactors. -/
abbrev afterScalefac (gr scfsi : Nat) (prev : Scalefac) (g : GranuleInfo) (bits : List Bool) (start : Nat) : Cursor :=
  (readScalefac gr scfsi prev g (Cursor.at bits start)).2

/-- The scalefactors take no more than part2_3_length bits (42_side_info_main_data.md R426). -/
def ScalefacFits (gr scfsi : Nat) (prev : Scalefac) (g : GranuleInfo) (bits : List Bool) (start : Nat) : Prop :=
  (afterScalefac gr scfsi prev g bits start).pos - start ≤ g.part23Length

/-- From cursor `c0` a pair fails with cause `e` after pairs inside the part (43_huffman.md R456, R459, R460). -/
def LoopFails (freq : Nat) (g : GranuleInfo) (partEnd : Nat) (c0 : Cursor) (e : Cause) : Prop :=
  ∃ c v n, PairsRead (fun j => tableOfLine freq g (2 * j)) partEnd c0 c v n ∧ n < g.bigValues ∧
    PairFails (tableOfLine freq g (2 * n)) partEnd (c n) e

/-- The causes of the loop (43_huffman.md R459, R460). -/
theorem LoopFails.cause {partEnd : Nat} {c0 : Cursor} {e : Cause} (h : LoopFails freq g partEnd c0 e) :
    e = .badHuffcode ∨ e = .huffmanOverrun := by
  obtain ⟨c, v, n, -, -, h | ⟨h, -⟩⟩ := h
  · exact .inl (decodePair_error h)
  · exact .inr h

theorem bigValuesLoop_error_iff_loopFails {partEnd : Nat} {c0 : Cursor} {e : Cause} :
    bigValuesLoop (tableOfLine freq g) partEnd g.bigValues 0 c0 = .error e ↔ LoopFails freq g partEnd c0 e := by
  simp only [bigValuesLoop_error_iff, Nat.zero_add, LoopFails]

theorem decodePart_overrun (h : ¬ ScalefacFits gr scfsi prev g bits start) :
    decodePart freq gr scfsi prev g bits start = .error .scalefacOverrun := if_pos (Nat.lt_of_not_le h)

variable (hfit : ScalefacFits gr scfsi prev g bits start)
include hfit

theorem decodePart_badTable (h : badTables freq g = true) :
    decodePart freq gr scfsi prev g bits start = .error .badTable := by
  simp only [decodePart, if_neg (Nat.not_lt.2 hfit), decodeSpectrum, if_pos h]

variable (hsound : ¬ badTables freq g = true)
include hsound

/-- Past the checks a part is what its two loops make of it. -/
theorem decodePart_sound : decodePart freq gr scfsi prev g bits start =
    (bigValuesLoop (tableOfLine freq g) (start + g.part23Length) g.bigValues 0
      (afterScalefac gr scfsi prev g bits start)).map fun r =>
        ⟨g, (readScalefac gr scfsi prev g (Cursor.at bits start)).1, fillTo 576 0 (r.1 ++
          count1Loop g.count1Table (start + g.part23Length) ((576 - bv2 g) / 4) r.2)⟩ := by
  simp only [decodePart, if_neg (Nat.not_lt.2 hfit), decodeSpectrum, if_neg hsound]
  cases bigValuesLoop (tableOfLine freq g) (start + g.part23Length) g.bigValues 0
    (afterScalefac gr scfsi prev g bits start) <;> rfl

end

section
variable {freq gr scfsi start : Nat} {prev : Scalefac} {g : GranuleInfo} {bits : List Bool}

/-- A part fails for the first of its checks that fails (43_huffman.md R453, R459, R460). -/
theorem decodePart_error_iff {e : Cause} : decodePart freq gr scfsi prev g bits start = .error e ↔
    (¬ ScalefacFits gr scfsi prev g bits start ∧ e = .scalefacOverrun) ∨
    ((ScalefacFits gr scfsi prev g bits start ∧ badTables freq g = true) ∧ e = .badTable) ∨
    ((ScalefacFits gr scfsi prev g bits start ∧ ¬ badTables freq g = true) ∧
      LoopFails freq g (start + g.part23Length) (afterScalefac gr scfsi prev g bits start) e) := by
  by_cases hfit : ScalefacFits gr scfsi prev g bits start
  · by_cases hbad : badTables freq g = true
    · simp [decodePart_badTable hfit hbad, hfit, hbad, eq_comm (a := e)]
    · rw [decodePart_sound hfit hbad, ← bigValuesLoop_error_iff_loopFails]
      cases bigValuesLoop (tableOfLine freq g) (start + g.part23Length) g.bigValues 0
        (afterScalefac gr scfsi prev g bits start) <;> simp [hfit, hbad, Except.map]
  · simp [decodePart_overrun hfit, hfit, eq_comm (a := e)]

theorem decodePart_scalefacOverrun_iff : decodePart freq gr scfsi prev g bits start = .error .scalefacOverrun ↔
    ¬ ScalefacFits gr scfsi prev g bits start := by
  rw [decodePart_error_iff]
  refine ⟨fun h => ?_, fun h => .inl ⟨h, rfl⟩⟩
  rcases h with ⟨h, -⟩ | ⟨-, h⟩ | ⟨-, hfail⟩
  · exact h
  · cases h
  · simpa using hfail.cause

theorem decodePart_badTable_iff : decodePart freq gr scfsi prev g bits start = .error .badTable ↔
    ScalefacFits gr scfsi prev g bits start ∧ badTables freq g = true := by
  rw [decodePart_error_iff]
  refine ⟨fun h => ?_, fun h => .inr (.inl ⟨h, rfl⟩)⟩
  rcases h with ⟨-, h⟩ | ⟨h, -⟩ | ⟨-, hfail⟩
  · cases h
  · exact h
  · simpa using hfail.cause

/-- The loop's causes are raised past the checks only. -/
theorem decodePart_error_iff_of_loop {e : Cause} (he : e = .badHuffcode ∨ e = .huffmanOverrun) :
    decodePart freq gr scfsi prev g bits start = .error e ↔
      (ScalefacFits gr scfsi prev g bits start ∧ ¬ badTables freq g = true) ∧
        LoopFails freq g (start + g.part23Length) (afterScalefac gr scfsi prev g bits start) e := by
  rw [decodePart_error_iff, or_iff_right (by rcases he with rfl | rfl <;> simp),
    or_iff_right (by rcases he with rfl | rfl <;> simp)]

end

/-! ## The lines of a part that decodes -/

/-- A part that decodes passed the checks, and its lines are the pairs, then the quadruples, then 0
(42_side_info_main_data.md R410; 43_huffman.md R450). -/
theorem decodePart_ok {freq gr scfsi start : Nat} {prev : Scalefac} {g : GranuleInfo} {bits : List Bool} {p : Part}
    (h : decodePart freq gr scfsi prev g bits start = .ok p) :
    (ScalefacFits gr scfsi prev g bits start ∧ ¬ badTables freq g = true) ∧
      p.info = g ∧ p.scf = (readScalefac gr scfsi prev g (Cursor.at bits start)).1 ∧
      ∃ l c, bigValuesLoop (tableOfLine freq g) (start + g.part23Length) g.bigValues 0
          (afterScalefac gr scfsi prev g bits start) = .ok (l, c) ∧
        p.lines = fillTo 576 0 (l ++ count1Loop g.count1Table (start + g.part23Length) ((576 - bv2 g) / 4) c) := by
  by_cases hfit : ScalefacFits gr scfsi prev g bits start
  · by_cases hbad : badTables freq g = true
    · cases h.symm.trans (decodePart_badTable hfit hbad)
    · rw [decodePart_sound hfit hbad] at h
      cases hloop : bigValuesLoop (tableOfLine freq g) (start + g.part23Length) g.bigValues 0
          (afterScalefac gr scfsi prev g bits start) with
      | error e =>
        rw [hloop] at h
        cases h
      | ok r =>
        rw [hloop] at h
        cases h
        exact ⟨⟨hfit, hbad⟩, rfl, rfl, r.1, r.2, rfl, rfl⟩
  · cases h.symm.trans (decodePart_overrun hfit)

section
variable {a b : List Int} {i : Nat}

theorem fillTo_append_getD_left (h : i < 576) (ha : i < a.length) :
    (fillTo 576 0 (a ++ b)).toList.getD i 0 = a.getD i 0 := by
  rw [fillTo_getD 576 0 _ i h, List.getD_append _ _ _ _ ha]

theorem fillTo_append_getD_right (h : a.length + i < 576) :
    (fillTo 576 0 (a ++ b)).toList.getD (a.length + i) 0 = b.getD i 0 := by
  rw [fillTo_getD 576 0 _ _ h, List.getD_append_right _ _ _ _ (Nat.le_add_right _ _), Nat.add_sub_cancel_left]

theorem fillTo_append_getD_beyond (h : i < 576) (hl : a.length + b.length ≤ i) :
    (fillTo 576 0 (a ++ b)).toList.getD i 0 = 0 :=
  fillTo_getD_eq_default h (by rwa [List.length_append])

end

/-- Settles O36: a part fails for the first check that fails, the loop at the first pair that fails, and the lines of
one that decodes are those of the two loops. -/
theorem partCheckOrder : Obligations.PartCheckOrder := by
  refine ⟨fun c => rfl, fun t c h0 _ _ => decodePair_badHuffcode_iff_differ h0.ne', ?_⟩
  intro freq gr scfsi start prev g bits part r part2 partEnd bv2 r1 r2 table missing sound pairs
  have hmissing : badTables freq g = true ↔ missing := badTables_iff
  refine ⟨decodePart_scalefacOverrun_iff.trans Nat.not_le, ?_, ?_, ?_, fun e he => ?_, fun p hp => ?_⟩
  · rw [← hmissing]
    exact decodePart_badTable_iff
  · refine (decodePart_error_iff_of_loop (.inr rfl)).trans ?_
    simp only [LoopFails, pairFails_huffmanOverrun_iff, hmissing, ← exists_and_left]
    rfl
  · refine (decodePart_error_iff_of_loop (.inl rfl)).trans ?_
    simp only [LoopFails, pairFails_badHuffcode_iff, hmissing]
    rfl
  · rcases decodePart_error he with h | h | h | h <;> simp [h]
  · obtain ⟨⟨hfit, hbad⟩, hinfo, hscf, l, c1, hloop, hlines⟩ := decodePart_ok hp
    obtain ⟨c, v, hfirst, hlast, hlen, hpairs⟩ := bigValuesLoop_ok hloop
    obtain ⟨d, q, m, hd, hm, hlen4, hquads, hend⟩ :=
      count1Loop_spec g.count1Table partEnd ((576 - bv2) / 4) c1
    have hbv2 : l.length = bv2 := hlen
    intro line
    have hline (i : Nat) : line i =
        (fillTo 576 0 (l ++ count1Loop g.count1Table partEnd ((576 - bv2) / 4) c1)).toList.getD i 0 :=
      congrArg (fun x : Lines => x.toList.getD i 0) hlines
    simp only [Nat.zero_add] at hpairs
    refine ⟨⟨hfit, hmissing.not.1 hbad⟩, hinfo, hscf, c, d, v, q, m,
      ⟨hfirst, fun j hj => ⟨(hpairs j hj).1, (hpairs j hj).2.1⟩⟩, fun j hj hj2 => ?_, hd.trans hlast.symm,
      fun j hj => ?_, ?_, fun i hi h576 => ?_⟩
    · obtain ⟨-, -, hx, hy⟩ := hpairs j hj
      rw [hline, hline, fillTo_append_getD_left (by omega) (by omega), fillTo_append_getD_left hj2 (by omega)]
      exact ⟨hx, hy⟩
    · obtain ⟨hinside, hquad, hle, hvalues⟩ := hquads j hj
      refine ⟨by omega, hinside, hquad, hle, fun e he => ?_⟩
      rw [hline, Nat.add_assoc, show bv2 + (4 * j + e) = l.length + (4 * j + e) by omega,
        fillTo_append_getD_right (by omega)]
      exact hvalues e he
    · exact hend.imp_left (by omega)
    · rw [hline]
      exact fillTo_append_getD_beyond h576 (by omega)

end Sys2Proof.Machine
end

section
/-! PROOF. How a frame decodes (O35), and the step that drops one that does not (O33). -/

namespace Sys2Proof.Machine

/-! ## Bits of a byte sequence -/

/-- The bits in reading order, by number: bit `n` is in byte `n / 8`, counted from the most significant one
(20_memory.md R156). -/
theorem bytesBits_eq_map (l : List Byte) :
    bytesBits l = (List.range (8 * l.length)).map fun n => (l.getD (n / 8) 0).getLsbD (7 - n % 8) := by
  induction l with
  | nil => rfl
  | cons b l ih =>
    have hfirst : (List.range 8).map (fun n => ((b :: l).getD (n / 8) 0).getLsbD (7 - n % 8)) = byteBits b := by
      simp [List.range, List.range.loop, byteBits, BitVec.getMsbD]
    have hrest (n : Nat) : ((b :: l).getD ((8 + n) / 8) 0).getLsbD (7 - (8 + n) % 8) =
        (l.getD (n / 8) 0).getLsbD (7 - n % 8) := by
      rw [Nat.add_mod_left, Nat.add_div_left n (by decide), List.getD_cons_succ]
    rw [show bytesBits (b :: l) = byteBits b ++ bytesBits l from rfl, ih, List.length_cons, Nat.mul_add_one,
      Nat.add_comm, List.range_add, List.map_append, hfirst, List.map_map]
    simp only [Function.comp_def, hrest]

/-! ## The checks of the side information (42_side_info_main_data.md R419) -/

section
variable {g : GranuleInfo}

theorem granuleCheck_badBlockType_iff :
    granuleCheck g = some .badBlockType ↔ g.windowSwitching = true ∧ g.blockType = 0 := by
  by_cases hb : g.windowSwitching = true ∧ g.blockType = 0 <;> by_cases hv : 288 < g.bigValues <;>
    simp [granuleCheck, hb, hv]

theorem granuleCheck_bigValuesRange_iff : granuleCheck g = some .bigValuesRange ↔
    ¬ (g.windowSwitching = true ∧ g.blockType = 0) ∧ 288 < g.bigValues := by
  by_cases hb : g.windowSwitching = true ∧ g.blockType = 0 <;> by_cases hv : 288 < g.bigValues <;>
    simp [granuleCheck, hb, hv]

theorem granuleCheck_none_iff : granuleCheck g = none ↔
    ¬ (g.windowSwitching = true ∧ g.blockType = 0) ∧ g.bigValues ≤ 288 := by
  by_cases hb : g.windowSwitching = true ∧ g.blockType = 0 <;> by_cases hv : 288 < g.bigValues <;>
    simp [granuleCheck, hb, hv, Nat.le_of_not_lt]

end

theorem sideInfoCheck_cause {nch : Nat} {x : SideInfo} {c : Cause} (h : sideInfoCheck nch x = some c) :
    c = .badBlockType ∨ c = .bigValuesRange := by
  obtain ⟨-, g, -, -, -, hg⟩ := sideInfoCheck_some.1 h
  exact granuleCheck_some hg

/-! ## The parts in order (42_side_info_main_data.md R410, R413, R417; 30_encoding.md R222) -/

/-- Part `k` decoded at its part_start: granule `k / nch` of channel `k % nch`, `p` holding the parts before it. -/
def decodeNth (h : Header) (x : SideInfo) (bits : List Bool) (start : Nat) (p : Nat → Part) (k : Nat) :
    Except Cause Part :=
  decodePart h.samplingFrequency.toNat (k / h.nch) (if k % h.nch = 0 then x.scfsi0 else x.scfsi1)
    (if k < h.nch then noScalefac else (p (k - h.nch)).scf) ((granulesInOrder h.nch x).getD k default) bits
    (start + (((granulesInOrder h.nch x).take k).map fun g => g.part23Length).sum)

/-- The parts below `n` decode, to `p`. -/
def DecodeTo (h : Header) (x : SideInfo) (bits : List Bool) (start : Nat) (p : Nat → Part) (n : Nat) : Prop :=
  ∀ k, k < n → decodeNth h x bits start p k = .ok (p k)

section
variable {h : Header} {x : SideInfo} {bits : List Bool} {start : Nat}

/-- A part depends on the parts before it only. -/
theorem decodeNth_congr {p q : Nat → Part} {k : Nat} (hpq : ∀ j, j < k → p j = q j) :
    decodeNth h x bits start p k = decodeNth h x bits start q k := by
  have hn : 0 < h.nch := by rcases Header.nch_cases h with hn | hn <;> omega
  unfold decodeNth
  by_cases hk : k < h.nch
  · simp only [if_pos hk]
  · rw [hpq (k - h.nch) (by omega)]

/-- The first `n` parts decode, or one of them fails after those before it decoded. -/
theorem decodeTo_or_fails (h : Header) (x : SideInfo) (bits : List Bool) (start n : Nat) :
    (∃ p, DecodeTo h x bits start p n) ∨
      ∃ p m e, m < n ∧ DecodeTo h x bits start p m ∧ decodeNth h x bits start p m = .error e := by
  induction n with
  | zero => exact .inl ⟨fun _ => noPart, fun k hk => absurd hk (Nat.not_lt_zero k)⟩
  | succ n ih =>
    rcases ih with ⟨p, hp⟩ | ⟨p, m, e, hm, hfail⟩
    · cases he : decodeNth h x bits start p n with
      | error e => exact .inr ⟨p, n, e, Nat.lt_succ_self n, hp, he⟩
      | ok part =>
        have hsame (k : Nat) (hk : k ≤ n) (j : Nat) (hj : j < k) : Function.update p n part j = p j :=
          Function.update_of_ne (by omega) _ _
        refine .inl ⟨Function.update p n part, fun k hk => ?_⟩
        rw [decodeNth_congr (hsame k (Nat.le_of_lt_succ hk))]
        rcases Nat.lt_succ_iff_lt_or_eq.1 hk with hlt | rfl
        · rw [hp k hlt, hsame n le_rfl k hlt]
        · rw [he, Function.update_self]
    · exact .inr ⟨p, m, e, Nat.lt_succ_of_lt hm, hfail⟩

/-- The two parts of a single-channel frame. -/
theorem decodeNth_one (hn : h.nch = 1) (p : Nat → Part) :
    decodeNth h x bits start p 0 = decodePart h.samplingFrequency.toNat 0 x.scfsi0 noScalefac x.g0c0 bits start ∧
    decodeNth h x bits start p 1 = decodePart h.samplingFrequency.toNat 1 x.scfsi0 (p 0).scf x.g1c0 bits
      (start + x.g0c0.part23Length) := by
  simp [decodeNth, hn, granulesInOrder]

/-- The four parts of a two-channel frame. -/
theorem decodeNth_two (hn : h.nch = 2) (p : Nat → Part) :
    decodeNth h x bits start p 0 = decodePart h.samplingFrequency.toNat 0 x.scfsi0 noScalefac x.g0c0 bits start ∧
    decodeNth h x bits start p 1 = decodePart h.samplingFrequency.toNat 0 x.scfsi1 noScalefac x.g0c1 bits
      (start + x.g0c0.part23Length) ∧
    decodeNth h x bits start p 2 = decodePart h.samplingFrequency.toNat 1 x.scfsi0 (p 0).scf x.g1c0 bits
      (start + x.g0c0.part23Length + x.g0c1.part23Length) ∧
    decodeNth h x bits start p 3 = decodePart h.samplingFrequency.toNat 1 x.scfsi1 (p 1).scf x.g1c1 bits
      (start + x.g0c0.part23Length + x.g0c1.part23Length + x.g1c0.part23Length) := by
  simp [decodeNth, hn, granulesInOrder, Nat.add_assoc]

/-- The channels made of the parts `p` in order. -/
def channelsOf (h : Header) (x : SideInfo) (p : Nat → Part) : ChanIn × ChanIn :=
  (⟨x.scfsi0, p 0, p h.nch⟩, if h.nch = 1 then noChan else ⟨x.scfsi1, p 1, p 3⟩)

theorem decodeParts_of_decodeTo {p : Nat → Part} (hp : DecodeTo h x bits start p (granulesInOrder h.nch x).length) :
    decodeParts h x bits start = .ok (channelsOf h x p) := by
  rcases Header.nch_cases h with hn | hn
  · obtain ⟨e0, e1⟩ := decodeNth_one (x := x) (bits := bits) (start := start) hn p
    replace hp : DecodeTo h x bits start p 2 := by simpa [hn, granulesInOrder] using hp
    simp [decodeParts, decodeMono, channelsOf, hn, ← e0, ← e1, hp 0, hp 1]
  · obtain ⟨e0, e1, e2, e3⟩ := decodeNth_two (x := x) (bits := bits) (start := start) hn p
    replace hp : DecodeTo h x bits start p 4 := by simpa [hn, granulesInOrder] using hp
    simp [decodeParts, decodeStereo, channelsOf, hn, ← e0, ← e1, ← e2, ← e3, hp 0, hp 1, hp 2, hp 3]

theorem decodeParts_of_fails {p : Nat → Part} {n : Nat} {e : Cause} (hlen : n < (granulesInOrder h.nch x).length)
    (hp : DecodeTo h x bits start p n) (he : decodeNth h x bits start p n = .error e) :
    decodeParts h x bits start = .error e := by
  rcases Header.nch_cases h with hn | hn
  · obtain ⟨e0, e1⟩ := decodeNth_one (x := x) (bits := bits) (start := start) hn p
    replace hlen : n < 2 := by simpa [hn, granulesInOrder] using hlen
    interval_cases n
    · simp [decodeParts, decodeMono, hn, ← e0, he]
    · simp [decodeParts, decodeMono, hn, ← e0, ← e1, hp 0, he]
  · obtain ⟨e0, e1, e2, e3⟩ := decodeNth_two (x := x) (bits := bits) (start := start) hn p
    replace hlen : n < 4 := by simpa [hn, granulesInOrder] using hlen
    interval_cases n
    · simp [decodeParts, decodeStereo, hn, ← e0, he]
    · simp [decodeParts, decodeStereo, hn, ← e0, ← e1, hp 0, he]
    · simp [decodeParts, decodeStereo, hn, ← e0, ← e1, ← e2, hp 0, hp 1, he]
    · simp [decodeParts, decodeStereo, hn, ← e0, ← e1, ← e2, ← e3, hp 0, hp 1, hp 2, he]

/-- The parts fail exactly where the first that fails does. -/
theorem decodeParts_error_iff {e : Cause} : decodeParts h x bits start = .error e ↔
    ∃ p n, n < (granulesInOrder h.nch x).length ∧ DecodeTo h x bits start p n ∧
      decodeNth h x bits start p n = .error e := by
  refine ⟨fun he => ?_, fun ⟨p, n, hn, hp, hfail⟩ => decodeParts_of_fails hn hp hfail⟩
  rcases decodeTo_or_fails h x bits start (granulesInOrder h.nch x).length with ⟨p, hp⟩ | ⟨p, n, e', hn, hp, hfail⟩
  · cases he.symm.trans (decodeParts_of_decodeTo hp)
  · cases he.symm.trans (decodeParts_of_fails hn hp hfail)
    exact ⟨p, n, hn, hp, hfail⟩

theorem decodeParts_ok_iff {r : ChanIn × ChanIn} : decodeParts h x bits start = .ok r ↔
    ∃ p, DecodeTo h x bits start p (granulesInOrder h.nch x).length ∧ r = channelsOf h x p := by
  refine ⟨fun hr => ?_, fun ⟨p, hp, hr⟩ => hr ▸ decodeParts_of_decodeTo hp⟩
  rcases decodeTo_or_fails h x bits start (granulesInOrder h.nch x).length with ⟨p, hp⟩ | ⟨p, n, e', hn, hp, hfail⟩
  · cases hr.symm.trans (decodeParts_of_decodeTo hp)
    exact ⟨p, hp, rfl⟩
  · cases hr.symm.trans (decodeParts_of_fails hn hp hfail)

end

/-! ## The checks of a frame, in order (42_side_info_main_data.md R410; 60_exceptions.md R703) -/

/-- The frame's main data starts before the reservoir (42_side_info_main_data.md R411). -/
def Underflows (h : Header) (frame res : List Byte) : Prop := res.length < (frameSideInfo h frame).mainDataBegin

/-- The first bit of the frame's parts (42_side_info_main_data.md R413). -/
def partsStart (h : Header) (frame res : List Byte) : Nat := mainDataStart res.length (frameSideInfo h frame)

/-- The reservoir's bits after the append of the frame's main data (42_side_info_main_data.md R412). -/
def wholeBits (h : Header) (frame res : List Byte) : List Bool := bytesBits (res ++ mainDataOf h frame)

/-- The frame's parts run past the reservoir (42_side_info_main_data.md R414). -/
def PartsOverrun (h : Header) (frame res : List Byte) : Prop :=
  8 * (res ++ mainDataOf h frame).length < partsStart h frame res + totalPart23 h.nch (frameSideInfo h frame)

/-- The checks that come before the parts pass. -/
def FrameChecked (h : Header) (frame res : List Byte) : Prop :=
  ¬ Underflows h frame res ∧ sideInfoCheck h.nch (frameSideInfo h frame) = none ∧ ¬ PartsOverrun h frame res

section
variable {h : Header} {frame res : List Byte}

theorem decodeFrame_underflows (hu : Underflows h frame res) :
    decodeFrame h frame res = .error .reservoirUnderflow := if_pos hu

theorem decodeFrame_unsound {c : Cause} (hu : ¬ Underflows h frame res)
    (hc : sideInfoCheck h.nch (frameSideInfo h frame) = some c) : decodeFrame h frame res = .error c := by
  unfold Underflows at hu
  simp only [decodeFrame, if_neg hu, hc]

theorem decodeFrame_overrun (hu : ¬ Underflows h frame res) (hc : sideInfoCheck h.nch (frameSideInfo h frame) = none)
    (ho : PartsOverrun h frame res) : decodeFrame h frame res = .error .part23Overrun := by
  unfold Underflows at hu
  unfold PartsOverrun partsStart at ho
  simp only [decodeFrame, if_neg hu, hc, if_pos ho]

theorem decodeFrame_checked (hk : FrameChecked h frame res) : decodeFrame h frame res =
    (decodeParts h (frameSideInfo h frame) (wholeBits h frame res) (partsStart h frame res)).map fun c =>
      ⟨h, (frameSideInfo h frame).mainDataBegin, c.1, c.2⟩ := by
  obtain ⟨hu, hc, ho⟩ := hk
  unfold Underflows at hu
  unfold PartsOverrun partsStart at ho
  simp only [decodeFrame, if_neg hu, hc, if_neg ho, wholeBits, partsStart]
  split <;> simp only [Except.map, *]

/-- A frame fails at its first check that fails. -/
theorem decodeFrame_error_iff {e : Cause} : decodeFrame h frame res = .error e ↔
    (Underflows h frame res ∧ e = .reservoirUnderflow) ∨
    (¬ Underflows h frame res ∧ sideInfoCheck h.nch (frameSideInfo h frame) = some e) ∨
    ((¬ Underflows h frame res ∧ sideInfoCheck h.nch (frameSideInfo h frame) = none ∧ PartsOverrun h frame res) ∧
      e = .part23Overrun) ∨
    (FrameChecked h frame res ∧
      decodeParts h (frameSideInfo h frame) (wholeBits h frame res) (partsStart h frame res) = .error e) := by
  by_cases hu : Underflows h frame res
  · simp [decodeFrame_underflows hu, hu, FrameChecked, eq_comm (a := e)]
  · cases hc : sideInfoCheck h.nch (frameSideInfo h frame) with
    | some c => simp [decodeFrame_unsound hu hc, hu, hc, FrameChecked]
    | none =>
      by_cases ho : PartsOverrun h frame res
      · simp [decodeFrame_overrun hu hc ho, hu, hc, ho, FrameChecked, eq_comm (a := e)]
      · rw [decodeFrame_checked ⟨hu, hc, ho⟩]
        cases decodeParts h (frameSideInfo h frame) (wholeBits h frame res) (partsStart h frame res) <;>
          simp [hu, hc, ho, FrameChecked, Except.map]

theorem decodeFrame_ok_iff {f : FrameIn} : decodeFrame h frame res = .ok f ↔ FrameChecked h frame res ∧
    ∃ c, decodeParts h (frameSideInfo h frame) (wholeBits h frame res) (partsStart h frame res) = .ok c ∧
      f = ⟨h, (frameSideInfo h frame).mainDataBegin, c.1, c.2⟩ := by
  by_cases hu : Underflows h frame res
  · simp [decodeFrame_underflows hu, hu, FrameChecked]
  · cases hc : sideInfoCheck h.nch (frameSideInfo h frame) with
    | some c => simp [decodeFrame_unsound hu hc, hc, FrameChecked]
    | none =>
      by_cases ho : PartsOverrun h frame res
      · simp [decodeFrame_overrun hu hc ho, ho, FrameChecked]
      · rw [decodeFrame_checked ⟨hu, hc, ho⟩]
        cases decodeParts h (frameSideInfo h frame) (wholeBits h frame res) (partsStart h frame res) <;>
          simp [hu, hc, ho, FrameChecked, Except.map, eq_comm (a := f)]

/-! ## Each cause's condition -/

theorem decodeFrame_underflow_iff :
    decodeFrame h frame res = .error .reservoirUnderflow ↔ Underflows h frame res := by
  rw [decodeFrame_error_iff]
  refine ⟨fun he => ?_, fun hu => .inl ⟨hu, rfl⟩⟩
  rcases he with ⟨hu, -⟩ | ⟨-, hc⟩ | ⟨-, he⟩ | ⟨-, hp⟩
  · exact hu
  · simpa using sideInfoCheck_cause hc
  · cases he
  · simpa [PartCause] using decodeParts_error hp

theorem decodeFrame_unsound_iff {e : Cause} (hcause : e = .badBlockType ∨ e = .bigValuesRange) :
    decodeFrame h frame res = .error e ↔
      ¬ Underflows h frame res ∧ sideInfoCheck h.nch (frameSideInfo h frame) = some e := by
  rw [decodeFrame_error_iff]
  refine ⟨fun he => ?_, fun hc => .inr (.inl hc)⟩
  rcases he with ⟨-, rfl⟩ | hc | ⟨-, rfl⟩ | ⟨-, hp⟩
  · simp at hcause
  · exact hc
  · simp at hcause
  · rcases hcause with rfl | rfl <;> simpa [PartCause] using decodeParts_error hp

theorem decodeFrame_part23Overrun_iff : decodeFrame h frame res = .error .part23Overrun ↔
    ¬ Underflows h frame res ∧ sideInfoCheck h.nch (frameSideInfo h frame) = none ∧ PartsOverrun h frame res := by
  rw [decodeFrame_error_iff]
  refine ⟨fun he => ?_, fun ho => .inr (.inr (.inl ⟨ho, rfl⟩))⟩
  rcases he with ⟨-, he⟩ | ⟨-, hc⟩ | ⟨ho, -⟩ | ⟨-, hp⟩
  · cases he
  · simpa using sideInfoCheck_cause hc
  · exact ho
  · simpa [PartCause] using decodeParts_error hp

theorem decodeFrame_partCause_iff {e : Cause} (hcause : PartCause e) : decodeFrame h frame res = .error e ↔
    FrameChecked h frame res ∧
      decodeParts h (frameSideInfo h frame) (wholeBits h frame res) (partsStart h frame res) = .error e := by
  rw [decodeFrame_error_iff]
  refine ⟨fun he => ?_, fun hp => .inr (.inr (.inr hp))⟩
  rcases he with ⟨-, rfl⟩ | ⟨-, hc⟩ | ⟨-, rfl⟩ | hp
  · simp [PartCause] at hcause
  · rcases sideInfoCheck_cause hc with rfl | rfl <;> simp [PartCause] at hcause
  · simp [PartCause] at hcause
  · exact hp

end

/-- A block whose check passes (42_side_info_main_data.md R419). -/
abbrev SoundBlock (g : GranuleInfo) : Prop := ¬ (g.windowSwitching = true ∧ g.blockType = 0) ∧ g.bigValues ≤ 288

theorem sideInfoCheck_none_iff_sound {nch : Nat} {x : SideInfo} :
    sideInfoCheck nch x = none ↔ ∀ b ∈ granulesInOrder nch x, SoundBlock b := by
  simp only [sideInfoCheck_none, granuleCheck_none_iff]

theorem sideInfoCheck_some_iff_sound {nch : Nat} {x : SideInfo} {c : Cause} : sideInfoCheck nch x = some c ↔
    ∃ before g after, granulesInOrder nch x = before ++ g :: after ∧ (∀ b ∈ before, SoundBlock b) ∧
      granuleCheck g = some c := by
  simp only [sideInfoCheck_some, granuleCheck_none_iff]

/-- The checks before the parts, block by block. -/
theorem frameChecked_iff {h : Header} {frame res : List Byte} : FrameChecked h frame res ↔
    (frameSideInfo h frame).mainDataBegin ≤ res.length ∧
    (∀ b ∈ granulesInOrder h.nch (frameSideInfo h frame), SoundBlock b) ∧
    partsStart h frame res + totalPart23 h.nch (frameSideInfo h frame) ≤ 8 * (res ++ mainDataOf h frame).length := by
  rw [FrameChecked, Underflows, PartsOverrun, Nat.not_lt, Nat.not_lt, sideInfoCheck_none_iff_sound]

/-- Settles O35: the checks in order, each cause with the condition that raises it, then the parts in order. -/
theorem frameCheckOrder : Obligations.FrameCheckOrder := by
  intro h frame res nch crc side bitsOf
  have hbits : bitsOf = bytesBits := funext fun l => (bytesBits_eq_map l).symm
  clear_value bitsOf
  subst hbits
  intro x whole sound blocks start lengths checked decoded
  have hchecked : FrameChecked h frame res ↔ checked := frameChecked_iff
  refine ⟨decodeFrame_underflow_iff, ?_, ?_, ?_, fun e he => ?_, fun f => ?_⟩
  · refine (decodeFrame_unsound_iff (.inl rfl)).trans (and_congr Nat.not_lt ?_)
    simp only [sideInfoCheck_some_iff_sound, granuleCheck_badBlockType_iff]
    rfl
  · refine (decodeFrame_unsound_iff (.inr rfl)).trans (and_congr Nat.not_lt ?_)
    simp only [sideInfoCheck_some_iff_sound, granuleCheck_bigValuesRange_iff]
    rfl
  · exact decodeFrame_part23Overrun_iff.trans
      (and_congr Nat.not_lt (and_congr_left' sideInfoCheck_none_iff_sound))
  · have hcause : PartCause e := by
      simp only [List.mem_cons, List.not_mem_nil, or_false] at he
      unfold PartCause
      tauto
    exact (decodeFrame_partCause_iff hcause).trans (and_congr hchecked decodeParts_error_iff)
  · refine decodeFrame_ok_iff.trans (and_congr hchecked ?_)
    simp only [decodeParts_ok_iff]
    constructor
    · rintro ⟨_, ⟨p, hp, rfl⟩, rfl⟩
      exact ⟨p, hp, rfl⟩
    · rintro ⟨p, hp, rfl⟩
      exact ⟨_, ⟨p, hp, rfl⟩, rfl⟩

/-! ## The drop -/

theorem Cause.code_le_nine (c : Cause) : c.code.toNat ≤ 9 := by cases c <;> decide

/-- Settles O33: the iteration drops the frame, and no cause of a frame has a code outside 2 to 9. -/
theorem frameDropStep : Obligations.FrameDropStep := by
  intro s H c h frame crc side whole
  have hside : h.sideInfoBytes = side := by
    by_cases hm : h.mode = 3#2 <;> simp [Header.sideInfoBytes, Header.nch, side, hm]
  have hmain : mainDataOf h frame = frame.drop (4 + crc + side) := by rw [← hside]; rfl
  refine ⟨rfl, hmain, fun hdec hs hd => ⟨?_, decodeFrame_error_code hd, Cause.code_le_nine c⟩⟩
  have hdrop : iteration (tick s) = dropFrame c h.frameLength (s.res ++ mainDataOf h frame) (tick s) :=
    iteration_drop (s := tick s) hs hd
  rw [engineStep_decoding hdec, hdrop, hmain]
  rfl

end Sys2Proof.Machine
end

section
/-! PROOF. The constraints that every code set meets (O8). -/

namespace Sys2Proof.Machine

theorem codeSetNumber_ne_zero {t : Nat} (h0 : 0 < t) (hm : missingTable t = false) : codeSetNumber t ≠ 0 := by
  simp only [missingTable, Bool.or_eq_false_iff, decide_eq_false_iff_not] at hm
  unfold codeSetNumber
  split_ifs <;> omega

@[simp] theorem length_plainCodes (dim : Nat) : (plainCodes dim).length = dim * dim := by simp [plainCodes]

/-- The pair and the codeword's length of each entry of a plain code set. -/
theorem mem_plainCodes {dim : Nat} {k : Code} (hk : k ∈ plainCodes dim) :
    k.x < dim ∧ k.y < dim ∧ k.bits.length = 8 := by
  simp only [plainCodes, List.mem_map, List.mem_range] at hk
  obtain ⟨j, hj, rfl⟩ := hk
  exact ⟨Nat.div_lt_of_lt_mul hj, Nat.mod_lt _ (Nat.pos_of_lt_mul_right hj), length_natBits 8 j⟩

/-- A code set has `dim * dim` codewords (43_huffman.md R452). -/
theorem length_codeSet {n : Nat} (h : n ≠ 0) : (codeSet n).length = codeSetDim n * codeSetDim n := by
  rcases codeSet_cases h with ⟨rfl, he⟩ | hv | he
  · rw [he]
    rfl
  · simp only [codeSetValid, Bool.and_eq_true, decide_eq_true_eq] at hv
    obtain ⟨⟨⟨hlength, -⟩, -⟩, -⟩ := hv
    exact hlength
  · rw [he, length_plainCodes]

/-- Its codewords stand for pairs of 0..dim-1, and none is longer than 19 bits (43_huffman.md R452). -/
theorem mem_codeSet {n : Nat} {k : Code} (h : n ≠ 0) (hk : k ∈ codeSet n) :
    k.x < codeSetDim n ∧ k.y < codeSetDim n ∧ k.bits.length ≤ 19 := by
  rcases codeSet_cases h with ⟨rfl, he⟩ | hv | he
  · rw [he] at hk
    exact (by decide : ∀ k ∈ codesH1, k.x < 2 ∧ k.y < 2 ∧ k.bits.length ≤ 19) k hk
  · simp only [codeSetValid, Bool.and_eq_true, List.all_eq_true, decide_eq_true_eq] at hv
    obtain ⟨⟨⟨-, entries⟩, -⟩, -⟩ := hv
    obtain ⟨⟨hx, hy⟩, hlength⟩ := entries k hk
    exact ⟨hx, hy, hlength⟩
  · rw [he] at hk
    obtain ⟨hx, hy, hlength⟩ := mem_plainCodes hk
    exact ⟨hx, hy, hlength ▸ by decide⟩

/-- The parameter is taken where it meets the constraints (assumption log 10). -/
theorem codeSet_parameter {n : Nat} (h : 1 < n) :
    codeSet n = Config.huffTables n ∨ codeSetValid (codeSetDim n) (Config.huffTables n) = false := by
  rw [codeSet, if_neg (by omega), if_neg (by omega)]
  split_ifs with hv
  · exact .inl rfl
  · exact .inr (Bool.eq_false_iff.2 hv)

/-- Settles O8: the tables are the listed ones, and each of the three shapes of a code set meets the constraints. -/
theorem codeSetsMeetConstraints : Obligations.CodeSetsMeetConstraints := by
  refine ⟨by decide, by decide, by decide, rfl, fun n => codeSet_parameter, fun t h0 _ hm => ?_⟩
  have hn := codeSetNumber_ne_zero h0 hm
  exact ⟨length_codeSet hn, fun x y => codeSet_pair hn, fun k => mem_codeSet hn, codeSet_prefixFree hn⟩

end Sys2Proof.Machine
end

section
/-! PROOF. Which bits the quantized values of a part depend on (O55). -/

namespace Sys2Proof.Machine

/-! ## A cursor cut at a bit index -/

/-- The cursor with the bits from index `e` on taken away, those before it that lie past the end written out as 0
(42_side_info_main_data.md R416). -/
def Cursor.cut (e : Nat) (c : Cursor) : Cursor := ⟨c.pos, c.ahead (e - c.pos)⟩

@[simp] theorem Cursor.cut_pos (e : Nat) (c : Cursor) : (c.cut e).pos = c.pos := rfl

/-- Cursors at one index that agree on the bits below `e` are cut to the same one. -/
theorem Cursor.cut_congr {e p : Nat} {a b : List Bool} (h : ∀ i, i < e - p → a.getD i false = b.getD i false) :
    Cursor.cut e ⟨p, a⟩ = Cursor.cut e ⟨p, b⟩ :=
  congrArg (Cursor.mk p) (List.map_congr_left fun i hi => h i (List.mem_range.1 hi))

/-- A bit below the cut is read as before. -/
theorem Cursor.next_cut {e : Nat} {c : Cursor} (h : c.pos < e) : (c.cut e).next = (c.next.1, c.next.2.cut e) := by
  have hbits : c.ahead (e - c.pos) = c.next.1 :: c.next.2.ahead (e - (c.pos + 1)) := by
    rw [← Cursor.ahead_succ, Nat.sub_add_eq, Nat.sub_add_cancel (Nat.sub_pos_of_lt h)]
  rw [Cursor.cut, hbits, Cursor.next_cons, Cursor.cut, Cursor.next_pos]

theorem Cursor.getBitsFrom_cut {e n : Nat} (acc : Nat) {c : Cursor} (h : c.pos + n ≤ e) :
    Cursor.getBitsFrom acc n (c.cut e) = (Cursor.getBitsFrom acc n c).map id (Cursor.cut e) := by
  induction n generalizing acc c with
  | zero => rfl
  | succ n ih =>
    rw [Cursor.getBitsFrom, Cursor.next_cut (by omega), ih _ (by rw [Cursor.next_pos]; omega), Cursor.getBitsFrom]

/-- `getbits(n)` reads `n` bits (00_scope.md R11). -/
theorem Cursor.getBits_cut {e n : Nat} {c : Cursor} (h : c.pos + n ≤ e) :
    (c.cut e).getBits n = (c.getBits n).map id (Cursor.cut e) := Cursor.getBitsFrom_cut 0 h

/-! ## A codeword and the values after it -/

theorem longestCode_le {codes : List Code} {m : Nat} (h : ∀ k ∈ codes, k.bits.length ≤ m) : longestCode codes ≤ m :=
  List.foldlRecOn (motive := (· ≤ m)) _ max (Nat.zero_le m) fun b hb n hn => by
    obtain ⟨k, hk, rfl⟩ := List.mem_map.1 hn
    exact max_le hb (h k hk)

/-- Matching a codeword with `n` bits to spend reads at most `n` (30_encoding.md R225). -/
theorem matchCode_pos_le {codes : List Code} {n : Nat} {got : List Bool} {c c' : Cursor} {k : Code}
    (h : matchCode codes n got c = some (k, c')) : c'.pos ≤ c.pos + n := by
  induction n generalizing got c with
  | zero => cases h
  | succ n ih =>
    unfold matchCode at h
    split at h
    · cases h
      rw [Cursor.next_pos]
      omega
    · have hrest := ih h
      rw [Cursor.next_pos] at hrest
      omega

theorem matchCode_cut {codes : List Code} {e n : Nat} (got : List Bool) {c : Cursor} (h : c.pos + n ≤ e) :
    matchCode codes n got (c.cut e) = (matchCode codes n got c).map (Prod.map id (Cursor.cut e)) := by
  induction n generalizing got c with
  | zero => rfl
  | succ n ih =>
    unfold matchCode
    rw [Cursor.next_cut (by omega)]
    cases codes.find? (fun k => k.bits == got ++ [c.next.1]) with
    | some k => rfl
    | none => exact ih _ (by rw [Cursor.next_pos]; omega)

theorem signedRead_pos_le (m : Nat) (c : Cursor) : (signedRead m c).2.pos ≤ c.pos + 1 := by
  unfold signedRead
  split_ifs <;> simp

theorem signedRead_cut {e : Nat} (m : Nat) {c : Cursor} (h : c.pos < e) :
    signedRead m (c.cut e) = (signedRead m c).map id (Cursor.cut e) := by
  unfold signedRead
  rw [Cursor.next_cut h]
  split_ifs <;> rfl

/-- A value takes its linbits and a sign (43_huffman.md R458). -/
theorem pairValue_pos_le (lb v : Nat) (c : Cursor) : (pairValue lb v c).2.pos ≤ c.pos + lb + 1 := by
  by_cases escape : 0 < lb ∧ v = 15
  · rw [pairValue_escape c escape, ← Cursor.getBits_pos]
    exact signedRead_pos_le _ _
  · rw [pairValue_plain c escape]
    exact (signedRead_pos_le v c).trans (by omega)

theorem pairValue_cut {e lb : Nat} (v : Nat) {c : Cursor} (h : c.pos + lb < e) :
    pairValue lb v (c.cut e) = (pairValue lb v c).map id (Cursor.cut e) := by
  by_cases escape : 0 < lb ∧ v = 15
  · rw [pairValue_escape _ escape, pairValue_escape _ escape, Cursor.getBits_cut h.le]
    exact signedRead_cut _ ((Cursor.getBits_pos lb c).trans_lt h)
  · rw [pairValue_plain _ escape, pairValue_plain _ escape]
    exact signedRead_cut v (by omega)

/-! ## Pairs and quadruples -/

/-- The most bits that one pair takes: a codeword, and for each value its linbits and its sign (43_huffman.md R464). -/
def pairMaxBits : Nat := 19 + 13 + 1 + 13 + 1

theorem longestCode_codeSet_le (n : Nat) : longestCode (codeSet n) ≤ 19 :=
  longestCode_le fun k hk => by
    have hn : n ≠ 0 := fun h => by simp [h, codeSet] at hk
    obtain ⟨-, -, hlength⟩ := mem_codeSet hn hk
    exact hlength

theorem decodePair_cut {e : Nat} (t : Nat) {c : Cursor} (h : c.pos + pairMaxBits ≤ e) :
    decodePair t (c.cut e) = (decodePair t c).map (Prod.map id (Cursor.cut e)) := by
  by_cases h0 : t = 0
  · simp [decodePair, h0, Except.map]
  unfold pairMaxBits at h
  have hlong := longestCode_codeSet_le (codeSetNumber t)
  have hlb := linbits_le t
  simp only [decodePair, if_neg h0]
  generalize codeSet (codeSetNumber t) = codes at hlong
  rw [matchCode_cut [] (by omega)]
  cases hm : matchCode codes (longestCode codes) [] c with
  | none => rfl
  | some r =>
    obtain ⟨k, c1⟩ := r
    have hcode := matchCode_pos_le hm
    have hx := pairValue_pos_le (linbits t) k.x c1
    simp (disch := omega) only [Option.map_some, Prod.map_apply, id_eq, pairValue_cut, Prod.map_fst, Prod.map_snd,
      Except.map]

theorem quadValue_pos_le (b : Bool) (c : Cursor) : (quadValue b c).2.pos ≤ c.pos + 1 := by
  rw [quadValue_eq_signedRead]
  exact signedRead_pos_le _ _

theorem quadValue_cut {e : Nat} (b : Bool) {c : Cursor} (h : c.pos < e) :
    quadValue b (c.cut e) = (quadValue b c).map id (Cursor.cut e) := by
  rw [quadValue_eq_signedRead, quadValue_eq_signedRead]
  exact signedRead_cut _ h

/-- The codeword of a quadruple and the cursor after it (43_huffman.md R461). -/
def quadMatch (sel : Bool) (c : Cursor) : Code × Cursor :=
  (matchCode (quadTable sel) (longestCode (quadTable sel)) [] c).getD (default, c)

theorem longestCode_quadTable_le (sel : Bool) : longestCode (quadTable sel) ≤ 6 := by cases sel <;> decide

theorem quadMatch_pos_le (sel : Bool) (c : Cursor) : (quadMatch sel c).2.pos ≤ c.pos + 6 := by
  have hlong := longestCode_quadTable_le sel
  unfold quadMatch
  cases hm : matchCode (quadTable sel) (longestCode (quadTable sel)) [] c with
  | none => exact Nat.le_add_right _ _
  | some r => exact (matchCode_pos_le hm).trans (by omega)

theorem quadMatch_cut {e : Nat} (sel : Bool) {c : Cursor} (h : c.pos + 6 ≤ e) :
    quadMatch sel (c.cut e) = (quadMatch sel c).map id (Cursor.cut e) := by
  have hlong := longestCode_quadTable_le sel
  rw [quadMatch, matchCode_cut [] (by omega)]
  exact Option.getD_map (Prod.map id (Cursor.cut e)) (default, c) _

/-- The values of a quadruple in order, each with its sign where its bit is 1 (43_huffman.md R461). -/
theorem decodeQuad_eq (sel : Bool) (c : Cursor) : decodeQuad sel c =
    (let m := quadMatch sel c
     let v := quadValue (m.1.x.testBit 3) m.2
     let w := quadValue (m.1.x.testBit 2) v.2
     let x := quadValue (m.1.x.testBit 1) w.2
     let y := quadValue (m.1.x.testBit 0) x.2
     ([v.1, w.1, x.1, y.1], y.2)) := rfl

/-- A quadruple takes a codeword of at most 6 bits and four signs (43_huffman.md R455, R461). -/
theorem decodeQuad_cut {e : Nat} (sel : Bool) {c : Cursor} (h : c.pos + 10 ≤ e) :
    decodeQuad sel (c.cut e) = (decodeQuad sel c).map id (Cursor.cut e) := by
  have hcode := quadMatch_pos_le sel c
  simp only [decodeQuad_eq, quadMatch_cut sel (show c.pos + 6 ≤ e by omega)]
  generalize quadMatch sel c = m at hcode
  have hv := quadValue_pos_le (m.1.x.testBit 3) m.2
  have hw := quadValue_pos_le (m.1.x.testBit 2) (quadValue (m.1.x.testBit 3) m.2).2
  have hx := quadValue_pos_le (m.1.x.testBit 1) (quadValue (m.1.x.testBit 2) (quadValue (m.1.x.testBit 3) m.2).2).2
  simp (disch := omega) only [Prod.map_fst, Prod.map_snd, id_eq, quadValue_cut, Prod.map_apply]

/-! ## The loops -/

theorem bigValuesLoop_cut {table : Nat → Nat} {e partEnd : Nat} (n i : Nat) {c : Cursor}
    (h : c.pos + pairMaxBits ≤ e) (he : partEnd + pairMaxBits ≤ e) : bigValuesLoop table partEnd n i (c.cut e) =
      (bigValuesLoop table partEnd n i c).map (Prod.map id (Cursor.cut e)) := by
  induction n generalizing i c with
  | zero => rfl
  | succ n ih =>
    simp only [bigValuesLoop, decodePair_cut (table i) h]
    cases decodePair (table i) c with
    | error err => rfl
    | ok r =>
      obtain ⟨x, c1⟩ := r
      simp only [Except.map, Prod.map_apply, id_eq, Cursor.cut_pos]
      by_cases hover : partEnd < c1.pos
      · simp [hover]
      · simp only [if_neg hover, ih (i + 2) (show c1.pos + pairMaxBits ≤ e by omega)]
        cases bigValuesLoop table partEnd n (i + 2) c1 <;> rfl

theorem count1Loop_cut {e partEnd : Nat} (sel : Bool) (n : Nat) (c : Cursor) (he : partEnd + pairMaxBits ≤ e) :
    count1Loop sel partEnd n (c.cut e) = count1Loop sel partEnd n c := by
  induction n generalizing c with
  | zero => rfl
  | succ n ih =>
    by_cases hinside : c.pos < partEnd
    · have hquad := decodeQuad_cut sel (c := c) (e := e) (by unfold pairMaxBits at he; omega)
      simp only [count1Loop, Cursor.cut_pos, hquad, Prod.map_fst, Prod.map_snd, id_eq, ih]
    · simp [count1Loop, hinside]

/-- The quantized values of a part are those of its bits up to the most that one pair takes past its end
(43_huffman.md R464). -/
theorem decodeSpectrum_cut {e freq partEnd : Nat} (g : GranuleInfo) {c : Cursor} (h : c.pos + pairMaxBits ≤ e)
    (he : partEnd + pairMaxBits ≤ e) :
    decodeSpectrum freq g partEnd (c.cut e) = decodeSpectrum freq g partEnd c := by
  unfold decodeSpectrum
  split
  · rfl
  · rw [bigValuesLoop_cut _ _ h he]
    cases bigValuesLoop (tableOfLine freq g) partEnd g.bigValues 0 c with
    | error err => rfl
    | ok r => simp only [Except.map, Prod.map_fst, Prod.map_snd, id_eq, count1Loop_cut _ _ _ he]

/-- Settles O55: cut at that index, the two strings are the same one. -/
theorem huffmanReadsLocally : Obligations.HuffmanReadsLocally := by
  intro freq partEnd p g a b hab
  obtain ⟨e, he⟩ : ∃ e, e = p + (partEnd - p + pairMaxBits) := ⟨_, rfl⟩
  have hcut : Cursor.cut e ⟨p, a⟩ = Cursor.cut e ⟨p, b⟩ :=
    Cursor.cut_congr fun i hi => hab i (by unfold pairMaxBits at he; omega)
  have hlocal (l : List Bool) : decodeSpectrum freq g partEnd (Cursor.cut e ⟨p, l⟩) =
      decodeSpectrum freq g partEnd ⟨p, l⟩ :=
    decodeSpectrum_cut g (show p + pairMaxBits ≤ e by omega) (by omega)
  rw [← hlocal a, hcut, hlocal b]

end Sys2Proof.Machine
end

section
/-! PROOF. What the snapshot shows after a delivery, and what writes it (O51). -/

namespace Sys2Proof.Machine

/-! ## What the snapshot holds (43_huffman.md R466) -/

/-- The snapshot of a frame, by granule, channel and line (43_huffman.md R466). -/
theorem snapLine_snapshotOf (f : FrameIn) {gr ch : Nat} (line : Nat) (hgr : gr < 2) (hch : ch < 2) :
    snapLine (snapshotOf f) gr ch line = (framePart f gr ch).lines.toList.getD line 0 := by
  interval_cases gr <;> interval_cases ch <;> rfl

theorem framePart_linesFit {f : FrameIn} (h0 : ChanFits f.ch0) (h1 : ChanFits f.ch1) (gr ch : Nat) :
    LinesFit (framePart f gr ch).lines := by
  unfold framePart
  split_ifs
  · exact h0.1
  · exact h0.2
  · exact h1.1
  · exact h1.2

/-- A register holds a value that a table can code (43_huffman.md R452). -/
theorem toInt_ofInt_of_valueFits {v : Int} (h : ValueFits v) : (BitVec.ofInt 32 v).toInt = v := by
  unfold ValueFits at h
  exact BitVec.toInt_ofInt_eq_self (by decide) (by norm_num; omega) (by norm_num; omega)

/-- A single-channel frame has no channel 1 (42_side_info_main_data.md R410). -/
theorem decodeFrame_ok_single {h : Header} {frame res : List Byte} {f : FrameIn} (hn : h.nch = 1)
    (hd : decodeFrame h frame res = .ok f) : f.ch1 = noChan := by
  obtain ⟨-, c, hparts, rfl⟩ := decodeFrame_ok_iff.1 hd
  obtain ⟨p, -, rfl⟩ := decodeParts_ok_iff.1 hparts
  exact if_pos hn

theorem framePart_noChan {f : FrameIn} (h : f.ch1 = noChan) (gr line : Nat) :
    (framePart f gr 1).lines.toList.getD line 0 = 0 := by
  have hlines : (framePart f gr 1).lines = Vector.replicate 576 0 := by
    simp only [framePart, one_ne_zero, if_false, h, noChan, ite_self, noPart]
  rw [hlines, Vector.toList_replicate]
  exact getD_of_forall (P := (· = 0)) (fun v hv => List.eq_of_mem_replicate hv) rfl line

/-! ## What writes the snapshot -/

/-- The steps of a PULL that count no frame leave the snapshot (43_huffman.md R466). -/
theorem iteration_isSnap (s : State) : ((iteration s).frames = s.frames ∧ (iteration s).isSnap = s.isSnap) ∨
    ((iteration s).frames = s.frames + 1 ∧ (iteration s).engine = .idle ∧ (iteration s).pcmValid = true) := by
  rcases iteration_cases s with ⟨-, e⟩ | ⟨-, e⟩ | ⟨-, e⟩ | ⟨H, c, -, -, e⟩ | ⟨H, f, -, -, e⟩ <;> rw [e]
  case inr.inr.inr.inr => exact .inr ⟨rfl, rfl, rfl⟩
  all_goals exact .inl ⟨rfl, rfl⟩

/-- What `t` is after a delivery that starts from `s`. -/
def Delivered (s t : State) : Prop :=
  decoding s ∧ t.engine = .idle ∧ t.pcmValid = true ∧ t.frames = s.frames + 1

theorem SameBlock.delivered {s b t : State} (hb : SameBlock s b) (h : Delivered b t) : Delivered s t := by
  rw [hb] at h
  exact h

theorem engineStep_isSnap (s : State) : (engineStep s).isSnap = s.isSnap ∨ Delivered s (engineStep s) := by
  by_cases h : decoding s
  · rw [engineStep_decoding h]
    rcases iteration_isSnap (tick s) with ⟨-, hsnap⟩ | ⟨hframes, hidle, hvalid⟩
    · exact .inl hsnap
    · exact .inr ⟨h, hidle, hvalid, hframes⟩
  · exact .inl (by rw [engineStep_waiting h])

/-- Of what is neither a command nor a reset only a delivery writes the snapshot. -/
theorem PlainMove.isSnap {b t : State} (h : PlainMove b t) : t.isSnap = b.isSnap ∨ Delivered b t := by
  rcases h with rfl | rfl | ⟨v, rfl⟩ | rfl | ⟨v, rfl⟩ | ⟨v, rfl⟩
  case inr.inl => exact engineStep_isSnap b
  case inr.inr.inl =>
    refine .inl ?_
    rcases writeInData_cases v b with ⟨-, e⟩ | ⟨-, -, e⟩ | ⟨-, -, e⟩ <;> rw [e] <;> rfl
  all_goals exact .inl rfl

/-- No command's effect but OPEN's and RESET's writes the snapshot (10_state.md R120). -/
theorem effectOf_isSnap {i : Instr} (s : State) (ho : i ≠ .openFile) (hr : i ≠ .reset) :
    (effectOf i s).isSnap = s.isSnap := by
  cases i with
  | reset => exact absurd rfl hr
  | openFile => exact absurd rfl ho
  | pull =>
    by_cases h : s.session = .exhausted
    · simp [effectOf, pullEffect_exhausted h]
    · simp [effectOf, pullEffect_streaming h]
  | refillDone =>
    by_cases h : s.pending = .opening
    · simp [effectOf, refillEffect_open h]
    · simp [effectOf, refillEffect_pull h]
  | refillDoneErr =>
    by_cases h : s.pending = .opening
    · simp [effectOf, refillEffect_open_err h]
    · simp [effectOf, refillEffect_pull_err h]
  | _ => rfl

/-- A command leaves the snapshot, or is RESET or OPEN and clears it (10_state.md R120). -/
theorem exec_isSnap {i : Instr} {s t : State} (h : exec i s = .next t) :
    t.isSnap = s.isSnap ∨ ((i = .reset ∨ i = .openFile) ∧ t.isSnap = zeroSnap) := by
  rw [exec_eq_issue, Host.Outcome.next.injEq] at h
  subst h
  rcases issue_cases i (effectOf i) s with ⟨e, -, he⟩ | ⟨-, he⟩ <;> rw [he]
  · exact .inl rfl
  · by_cases hr : i = .reset
    · subst hr
      exact .inr ⟨.inl rfl, rfl⟩
    · by_cases ho : i = .openFile
      · subst ho
        exact .inr ⟨.inr rfl, rfl⟩
      · exact .inl (effectOf_isSnap s ho hr)

/-- A step leaves the snapshot, clears it, or delivers a frame. -/
theorem step_isSnap {s t : State} (h : step s = .next t) : t.isSnap = s.isSnap ∨
    ((nextIsReset s = true ∨ nextCommand s = some .reset ∨ nextCommand s = some .openFile) ∧ t.isSnap = zeroSnap) ∨
    Delivered s t := by
  obtain ⟨b, hb, ⟨-, -, hp⟩ | ⟨-, i, hi, hx⟩ | ⟨-, hr, rfl⟩⟩ := step_moves h
  all_goals have hsnap : b.isSnap = s.isSnap := by rw [hb]
  · rcases hp.isSnap with hkept | hdelivered
    · exact .inl (hkept.trans hsnap)
    · exact .inr (.inr (hb.delivered hdelivered))
  · rcases exec_isSnap hx with hkept | ⟨rfl | rfl, hzero⟩
    · exact .inl (hkept.trans hsnap)
    · exact .inr (.inl ⟨.inr (.inl hi), hzero⟩)
    · exact .inr (.inl ⟨.inr (.inr hi), hzero⟩)
  · exact .inr (.inl ⟨.inl hr, rfl⟩)

/-- A reset clears the snapshot (10_state.md R120). -/
theorem step_reset_isSnap {s t : State} (hr : nextIsReset s = true) (h : step s = .next t) : t.isSnap = zeroSnap := by
  obtain ⟨b, -, ⟨-, hn, -⟩ | ⟨hn, -⟩ | ⟨-, -, rfl⟩⟩ := step_moves h
  · simp [hr] at hn
  · simp [hr] at hn
  · rfl

/-! ## What DBG_DATA reads -/

theorem dbgGr_lt (sel : Word) : dbgGr sel < 2 := (sel.extractLsb' 11 1).isLt

theorem dbgCh_lt (sel : Word) : dbgCh sel < 2 := (sel.extractLsb' 10 1).isLt

section
variable {s : State} {H : Word} {f : FrameIn} (sel : Word) (hdec : decoding s) (hs : headerStage s = .frame H)
  (hd : decodeFrame (headerOfWord H) (frameBytes s (headerOfWord H)) s.res = .ok f)
include hdec hs hd

/-- DBG_DATA for any DBG_SEL, after the delivery of a frame (10_state.md R79; 43_huffman.md R466). -/
theorem dbgData_delivery : dbgData { engineStep s with dbgSel := sel } =
    if dbgLine sel < 576 then
      BitVec.ofInt 32 ((framePart f (dbgGr sel) (dbgCh sel)).lines.toList.getD (dbgLine sel) 0)
    else 0 := by
  rw [engineStep_decoding hdec, iteration_deliver (s := tick s) hs hd,
    ← snapLine_snapshotOf f (dbgLine sel) (dbgGr_lt sel) (dbgCh_lt sel)]
  rfl

theorem dbgData_delivery_toInt (hline : dbgLine sel < 576) :
    (dbgData { engineStep s with dbgSel := sel }).toInt =
      (framePart f (dbgGr sel) (dbgCh sel)).lines.toList.getD (dbgLine sel) 0 := by
  obtain ⟨-, h0, h1⟩ := decodeFrame_ok_fits hd
  rw [dbgData_delivery sel hdec hs hd, if_pos hline]
  exact toInt_ofInt_of_valueFits (getD_of_forall (framePart_linesFit h0 h1 _ _) (Nat.zero_le _) _)

/-- Past the lines, and in a channel that the frame does not have, DBG_DATA reads 0. -/
theorem dbgData_delivery_zero (habsent : 576 ≤ dbgLine sel ∨ (headerOfWord H).nch ≤ dbgCh sel) :
    dbgData { engineStep s with dbgSel := sel } = 0 := by
  rw [dbgData_delivery sel hdec hs hd]
  split_ifs with hline
  · have hch := dbgCh_lt sel
    have hnch := Header.nch_cases (headerOfWord H)
    rw [show dbgCh sel = 1 by omega, framePart_noChan (decodeFrame_ok_single (by omega) hd)]
    rfl
  · rfl

end

/-- Settles O51: the delivered frame's snapshot is its quantized values, and of the moves of a step only a delivery,
OPEN, RESET and a reset write the snapshot. -/
theorem snapshotShowsFrame : Obligations.SnapshotShowsFrame := by
  refine ⟨?delivery, fun s hdec hframes => ?noDelivery, fun s t hstep hne => (step_isSnap hstep).resolve_left hne,
    fun s t => step_reset_isSnap, fun s => ⟨_, rfl, rfl⟩, fun s hidle => ⟨openEffect s, ?openFile, rfl⟩⟩
  case delivery =>
    intro s H f sel h t ch gr line hdec hs hd
    exact ⟨fun hline _ => dbgData_delivery_toInt sel hdec hs hd hline, dbgData_delivery_zero sel hdec hs hd⟩
  case noDelivery =>
    rw [engineStep_decoding hdec] at hframes ⊢
    rcases iteration_isSnap (tick s) with ⟨-, hsnap⟩ | ⟨hmore, -⟩
    · exact hsnap
    · exact absurd (hmore.symm.trans hframes) (by simp)
  case openFile => exact (exec_eq_issue _ _).trans (congrArg _ (issue_accepted (if_pos hidle)))

end Sys2Proof.Machine
end

section
/-! PROOF. Every value of a decoded frame lies in its range (O52). -/

namespace Sys2Proof.Machine

/-! ## The side information within its widths (30_encoding.md R217 to R219) -/

/-- A number of `n` bits lies below `2 ^ n`, written out. -/
theorem Cursor.getBits_lt_of_eq {n m : Nat} (h : 2 ^ n = m) (c : Cursor) : (c.getBits n).1 < m := h ▸ c.getBits_lt n

/-- A parsed block has each field within its width, and 0 where its layout does not carry it. -/
theorem granuleFits_parseGranule (c : Cursor) : granuleFits (parseGranule c).1 = true := by
  unfold parseGranule
  simp only
  split
  next hswitching =>
    rw [Cursor.getFlag_eq] at hswitching
    simp [granuleFits, Cursor.getBits_lt_of_eq, hswitching]
  next hplain =>
    rw [Cursor.getFlag_eq, Bool.not_eq_true] at hplain
    simp [granuleFits, Cursor.getBits_lt_of_eq, hplain]

theorem granuleFits_default : granuleFits default = true := by decide

/-- The parsed side information has each field within its width. -/
theorem sideInfoFits_parseSideInfo (nch : Nat) (c : Cursor) : sideInfoFits nch (parseSideInfo nch c) = true := by
  by_cases hn : nch = 1 <;>
    simp [parseSideInfo, sideInfoFits, hn, Cursor.getBits_lt_of_eq, granuleFits_parseGranule, granuleFits_default]

/-! ## Scalefactors of at most four bits (30_encoding.md R221) -/

/-- Every scalefactor of a part lies below 16. -/
def ScalefacBelow16 (x : Scalefac) : Prop := (∀ k ∈ x.long.toList, k < 16) ∧ ∀ k ∈ x.short.toList, k < 16

theorem slen1_le (g : GranuleInfo) : slen1 g ≤ 4 := getD_of_forall (P := (· ≤ 4)) (by decide) (by decide) _

theorem slen2_le (g : GranuleInfo) : slen2 g ≤ 4 := getD_of_forall (P := (· ≤ 4)) (by decide) (by decide) _

theorem longWidthBits_le (g : GranuleInfo) (sfb : Nat) : longWidthBits g sfb ≤ 4 := by
  unfold longWidthBits
  split_ifs
  · exact slen1_le g
  · exact slen2_le g

theorem shortWidthBits_le (g : GranuleInfo) (sfb : Nat) : shortWidthBits g sfb ≤ 4 := by
  unfold shortWidthBits
  split_ifs
  · exact slen1_le g
  · exact slen2_le g

theorem Cursor.getBits_lt_16 {n : Nat} (h : n ≤ 4) (c : Cursor) : (c.getBits n).1 < 16 :=
  (c.getBits_lt n).trans_le (Nat.pow_le_pow_right (by decide) h)

/-- A long scalefactor is read with its width or copied from granule 0 (42_side_info_main_data.md R423). -/
theorem readLong_lt_16 (copied : Nat → Bool) {prev : Scalefac} (g : GranuleInfo) (l : List Nat) (c : Cursor)
    (hprev : ScalefacBelow16 prev) : ∀ k ∈ (readLong copied prev g l c).1, k < 16 := by
  induction l generalizing c with
  | nil => nofun
  | cons sfb l ih =>
    by_cases h : copied sfb
    · simp only [readLong, if_pos h, List.forall_mem_cons]
      exact ⟨getD_of_forall (P := (· < 16)) hprev.1 (by decide) sfb, ih c⟩
    · simp only [readLong, if_neg h, List.forall_mem_cons]
      exact ⟨Cursor.getBits_lt_16 (longWidthBits_le g sfb) c, ih _⟩

theorem readShort_lt_16 (g : GranuleInfo) (l : List Nat) (c : Cursor) : ∀ k ∈ (readShort g l c).1, k < 16 := by
  induction l generalizing c with
  | nil => nofun
  | cons sfb l ih =>
    have hwidth := shortWidthBits_le g sfb
    simp only [readShort, List.forall_mem_cons]
    exact ⟨Cursor.getBits_lt_16 hwidth _, Cursor.getBits_lt_16 hwidth _, Cursor.getBits_lt_16 hwidth _, ih _⟩

/-- What is filled up with 0 from numbers below 16 holds numbers below 16. -/
theorem fillTo_lt_16 (n : Nat) {l : List Nat} (h : ∀ k ∈ l, k < 16) : ∀ k ∈ (fillTo n 0 l).toList, k < 16 := by
  intro k hk
  rcases mem_fillTo hk with hl | rfl
  · exact h k hl
  · decide

theorem noScalefac_below16 : ScalefacBelow16 noScalefac := by
  have zeros (n : Nat) : ∀ k ∈ (Vector.replicate n 0).toList, k < 16 := fun k hk => by
    rw [Vector.toList_replicate] at hk
    rw [List.eq_of_mem_replicate hk]
    decide
  exact ⟨zeros 22, zeros 39⟩

/-- Each layout's scalefactors, where those that it may copy lie below 16. -/
theorem readScalefac_below16 (gr scfsi : Nat) {prev : Scalefac} (g : GranuleInfo) (c : Cursor)
    (hprev : ScalefacBelow16 prev) : ScalefacBelow16 (readScalefac gr scfsi prev g c).1 := by
  by_cases h : g.blockType = 2
  · cases hm : g.mixedBlock with
    | false =>
      rw [readScalefac_short gr scfsi prev c h hm]
      exact ⟨fillTo_lt_16 22 nofun, fillTo_lt_16 39 (readShort_lt_16 g _ c)⟩
    | true =>
      rw [readScalefac_mixed gr scfsi prev c h hm]
      have hzeros : ∀ k ∈ List.replicate 9 0, k < 16 := by decide
      exact ⟨fillTo_lt_16 22 (readLong_lt_16 _ g _ c hprev),
        fillTo_lt_16 39 (List.forall_mem_append.2 ⟨hzeros, readShort_lt_16 g _ _⟩)⟩
  · rw [readScalefac_long gr scfsi prev c h]
    exact ⟨fillTo_lt_16 22 (readLong_lt_16 _ g _ c hprev), fillTo_lt_16 39 nofun⟩

/-! ## Parts and frames -/

theorem partFits.below16 {p : Part} (h : partFits p) : ScalefacBelow16 p.scf := by
  obtain ⟨-, -, long, short⟩ := h
  exact ⟨long, short⟩

theorem decodePart_partFits {freq gr scfsi start : Nat} {prev : Scalefac} {g : GranuleInfo} {bits : List Bool}
    {p : Part} (hd : decodePart freq gr scfsi prev g bits start = .ok p) (hg : granuleFits g = true)
    (hprev : ScalefacBelow16 prev) : partFits p := by
  have hlines := decodePart_fits hd
  obtain ⟨-, hinfo, hscf, -⟩ := decodePart_ok hd
  obtain ⟨long, short⟩ := readScalefac_below16 gr scfsi g (Cursor.at bits start) hprev
  refine ⟨hinfo ▸ hg, fun v hv => ?_, hscf ▸ long, hscf ▸ short⟩
  have hvalue := hlines v hv
  unfold ValueFits at hvalue
  omega

/-- A part that the frame does not have holds zeros (10_state.md R97). -/
theorem partFits_noPart : partFits noPart := by
  refine ⟨granuleFits_default, fun v hv => ?_, noScalefac_below16⟩
  rw [noPart, Vector.toList_replicate] at hv
  rw [List.eq_of_mem_replicate hv]
  decide

theorem granulesInOrder_fit {nch : Nat} {x : SideInfo} (h : sideInfoFits nch x = true) :
    ∀ g ∈ granulesInOrder nch x, granuleFits g = true := by
  simp only [sideInfoFits, Bool.and_eq_true] at h
  obtain ⟨⟨⟨⟨⟨-, fits00⟩, fits01⟩, fits10⟩, fits11⟩, -⟩ := h
  unfold granulesInOrder
  split_ifs <;> simp [fits00, fits01, fits10, fits11]

/-- Parts decoded in order fit, one after the other: each copies scalefactors at most from a part before it. -/
theorem DecodeTo.fits {h : Header} {x : SideInfo} {bits : List Bool} {start n : Nat} {p : Nat → Part}
    (hp : DecodeTo h x bits start p n) (hx : sideInfoFits h.nch x = true) (k : Nat) (hk : k < n) :
    partFits (p k) := by
  induction k using Nat.strong_induction_on with
  | h k ih =>
    have hnch : 0 < h.nch := by rcases Header.nch_cases h with hn | hn <;> omega
    refine decodePart_partFits (hp k hk)
      (getD_of_forall (P := fun g => granuleFits g = true) (granulesInOrder_fit hx) granuleFits_default k) ?_
    split_ifs with hfirst
    · exact noScalefac_below16
    · exact (ih (k - h.nch) (by omega) (by omega)).below16

/-- The channels made of parts that fit. -/
theorem channelsOf_partFits {h : Header} {x : SideInfo} {p : Nat → Part}
    (hp : ∀ k, k < (granulesInOrder h.nch x).length → partFits (p k)) :
    (partFits (channelsOf h x p).1.g0 ∧ partFits (channelsOf h x p).1.g1) ∧
      partFits (channelsOf h x p).2.g0 ∧ partFits (channelsOf h x p).2.g1 := by
  rcases Header.nch_cases h with hn | hn
  · replace hp : ∀ k, k < 2 → partFits (p k) := by simpa [hn, granulesInOrder] using hp
    simp only [channelsOf, hn, if_true]
    exact ⟨⟨hp 0 (by decide), hp 1 (by decide)⟩, partFits_noPart, partFits_noPart⟩
  · replace hp : ∀ k, k < 4 → partFits (p k) := by simpa [hn, granulesInOrder] using hp
    simp only [channelsOf, hn, OfNat.ofNat_ne_one, if_false]
    exact ⟨⟨hp 0 (by decide), hp 2 (by decide)⟩, hp 1 (by decide), hp 3 (by decide)⟩

/-- A channel's scfsi is that of the side information, or 0 for a channel that the frame does not have. -/
theorem channelsOf_scfsi_lt {h : Header} {x : SideInfo} (p : Nat → Part) (hx : sideInfoFits h.nch x = true) :
    (channelsOf h x p).1.scfsi < 16 ∧ (channelsOf h x p).2.scfsi < 16 := by
  simp only [sideInfoFits, Bool.and_eq_true, decide_eq_true_eq] at hx
  obtain ⟨⟨⟨⟨⟨⟨⟨-, h0⟩, h1⟩, -⟩, -⟩, -⟩, -⟩, -⟩ := hx
  refine ⟨h0, ?_⟩
  unfold channelsOf
  split_ifs
  · exact (by decide : 0 < 16)
  · exact h1

/-- Settles O52: the side information's fields are numbers of their widths, and the parts fit one after the other. -/
theorem decodedValuesInRange : Obligations.DecodedValuesInRange := by
  intro h frame res f hvalid hfree hd
  have hside : sideInfoFits h.nch (frameSideInfo h frame) = true := sideInfoFits_parseSideInfo _ _
  obtain ⟨-, c, hparts, rfl⟩ := decodeFrame_ok_iff.1 hd
  obtain ⟨p, hp, rfl⟩ := decodeParts_ok_iff.1 hparts
  obtain ⟨hscfsi0, hscfsi1⟩ := channelsOf_scfsi_lt p hside
  obtain ⟨⟨h00, h10⟩, h01, h11⟩ := channelsOf_partFits (hp.fits hside)
  refine ⟨⟨hvalid, hfree, ?main, hscfsi0, hscfsi1, fun gr ch => ?parts⟩, rfl⟩
  case main =>
    simp only [sideInfoFits, Bool.and_eq_true, decide_eq_true_eq] at hside
    obtain ⟨⟨⟨⟨⟨⟨⟨hmain, -⟩, -⟩, -⟩, -⟩, -⟩, -⟩, -⟩ := hside
    exact hmain
  case parts =>
    unfold framePart
    split_ifs
    · exact h00
    · exact h10
    · exact h01
    · exact h11

end Sys2Proof.Machine
end

section
/-! PROOF. The requantised values as products of powers (O59). -/

namespace Sys2Proof.Machine

/-- A sum of quarter exponents is a product of powers of 2. -/
theorem quarterPow_sub (D : Nat → ℝ) (a b : Int) :
    (realCoefs D).quarterPow (a - b) = (2 : ℝ) ^ ((a : ℝ) / 4) * (2 : ℝ) ^ (-((b : ℝ) / 4)) := by
  rw [← Real.rpow_add two_pos, ← sub_eq_add_neg, ← sub_div, ← Int.cast_sub]
  rfl

/-- A quarter of `multQuarters` is `mult` (44_requantize_stereo.md R501). -/
theorem multQuarters_mul_div_four (g : GranuleInfo) (x : ℝ) :
    (multQuarters g : ℝ) * x / 4 = (if g.scalefacScale then 1 else 0.5) * x := by
  cases h : g.scalefacScale
  · norm_num [multQuarters, h]; ring
  · norm_num [multQuarters, h]

/-- A requantised value is its power 4/3 times the powers of 2 of its gain and of its scalefactor. -/
theorem requantize_of_gain {D : Nat → ℝ} {freq i : Nat} {p : Part} {gain : Int} {scale : Nat}
    (h : gainQuarters p.info p.scf (linePlace freq p.info i) = gain - multQuarters p.info * scale) :
    requantize (realCoefs D) freq p i =
      (realCoefs D).pow43 (p.lines.toList.getD i 0) * (2 : ℝ) ^ ((gain : ℝ) / 4) *
        (2 : ℝ) ^ (-((if p.info.scalefacScale then 1 else 0.5) * (scale : ℝ))) := by
  rw [requantize, h, quarterPow_sub, Int.cast_mul, Int.cast_natCast, multQuarters_mul_div_four, mul_assoc]

/-- Settles O59: the exponent at a line's place is the gain less the scaled scalefactor, and the power of a difference is
a product. -/
theorem requantisationFormula : Obligations.RequantisationFormula := by
  refine ⟨rfl, fun D h p0 p1 i hn => if_pos hn, fun D freq i p => ⟨fun s hs => ?long, fun s w f hs => ?short⟩⟩
  case long =>
    have hgain : gainQuarters p.info p.scf (linePlace freq p.info i) = ((p.info.globalGain : Int) - 210) -
        multQuarters p.info * (Scalefac.longAt p.scf s + if p.info.preflag then pretab.getD s 0 else 0 : Nat) := by
      rw [hs, gainQuarters]
      push_cast
      rfl
    rw [requantize_of_gain hgain]
    push_cast
    rfl
  case short =>
    have hgain : gainQuarters p.info p.scf (linePlace freq p.info i) =
        ((p.info.globalGain : Int) - 210 - 8 * subblockGain p.info w) -
          multQuarters p.info * (Scalefac.shortAt p.scf s w : Nat) := by
      rw [hs, gainQuarters]
    rw [requantize_of_gain hgain]
    push_cast
    rfl

end Sys2Proof.Machine
end

section
/-! PROOF. Which lines are intensity lines, and what joint stereo makes of every line (O60). -/

namespace Sys2Proof.Machine

/-! ## The extents of channel 1's nonzero values (44_requantize_stereo.md R522) -/

theorem foldl_max_le_iff (l : List Nat) (a n : Nat) : l.foldl max a ≤ n ↔ a ≤ n ∧ ∀ x ∈ l, x ≤ n := by
  induction l generalizing a with
  | nil => simp
  | cons x l ih => simp [ih, and_assoc]

/-- One more than the last number below `m` that has a property is at most `n` when none from `n` on has it. -/
theorem lastSucc_le_iff (P : Nat → Bool) (m n : Nat) :
    ((List.range m).filter P).foldl (fun _ i => i + 1) 0 ≤ n ↔ ∀ k, n ≤ k → k < m → P k = false := by
  induction m with
  | zero => simp
  | succ m ih =>
    rw [List.range_succ, List.filter_append, List.foldl_append]
    cases hm : P m with
    | false =>
      simp only [List.filter_cons, hm, Bool.false_eq_true, if_false, List.filter_nil, List.foldl_nil, ih]
      refine ⟨fun h k hk hlt => ?_, fun h k hk hlt => h k hk (by omega)⟩
      rcases Nat.lt_succ_iff_lt_or_eq.1 hlt with hlt | rfl
      · exact h k hk hlt
      · exact hm
    | true =>
      simp only [List.filter_cons, hm, if_true, List.filter_nil, List.foldl_cons, List.foldl_nil]
      refine ⟨fun h k hk hlt => absurd h (by omega), fun h => ?_⟩
      by_contra hn
      have := h m (by omega) (Nat.lt_succ_self m)
      simp [hm] at this

theorem nonzeroExtent_le_iff (l : Lines) (n : Nat) :
    nonzeroExtent l ≤ n ↔ ∀ k, n ≤ k → k < 576 → l.toList.getD k 0 = 0 := by
  rw [nonzeroExtent, lastSucc_le_iff]
  simp only [decide_eq_false_iff_not, not_not]

theorem windowExtent_le_iff (freq : Nat) (p : Part) (w n : Nat) :
    windowExtent freq p w ≤ n ↔ ∀ k s f, k < 576 → linePlace freq p.info k = .short s w f →
      n ≤ sfbS freq s + f → p.lines.toList.getD k 0 = 0 := by
  rw [windowExtent, foldl_max_le_iff]
  simp only [Nat.zero_le, true_and, List.forall_mem_map, List.mem_range]
  constructor
  · intro h k s f hk hplace hn
    by_contra hz
    have hle : sfbS freq s + f + 1 ≤ n := by
      simpa only [hplace, ne_eq, hz, not_false_eq_true, and_self, if_true] using h k hk
    omega
  · intro h k hk
    split
    · next s w' f hplace =>
      split_ifs with hw
      · obtain ⟨rfl, hz⟩ := hw
        by_contra hn
        exact hz (h k s f hk hplace (Nat.lt_succ_iff.1 (Nat.not_le.1 hn)))
      · exact Nat.zero_le n
    · exact Nat.zero_le n

/-! ## The bound bands (44_requantize_stereo.md R522) -/

/-- The first band that starts at or after an extent is at most `s` when band `s` starts there. -/
theorem boundBand_le_iff {bound : Nat → Nat} {d extent s : Nat} (mono : ∀ s, s < d → ∀ t, t ≤ s → bound t ≤ bound s)
    (hs : s < d) :
    ((List.range (d + 1)).find? fun t => extent ≤ bound t).getD d ≤ s ↔ extent ≤ bound s := by
  cases hf : (List.range (d + 1)).find? fun t => extent ≤ bound t with
  | none =>
    have hnone := List.find?_eq_none.1 hf s (List.mem_range.2 (by omega))
    rw [decide_eq_true_eq] at hnone
    exact iff_of_false (Nat.not_le.2 hs) hnone
  | some t =>
    obtain ⟨hholds, -, hbefore⟩ := List.find?_range_eq_some.1 hf
    refine ⟨fun hle => (of_decide_eq_true hholds).trans (mono s hs t hle), fun hext => ?_⟩
    by_contra hlt
    have := hbefore s (Nat.not_le.1 hlt)
    simp [hext] at this

theorem longBoundBand_le_iff {freq s : Nat} (nz : Nat) (hfreq : freq < 3) (hs : s < 22) :
    longBoundBand freq nz ≤ s ↔ nz ≤ sfbL freq s := by
  have mono : ∀ freq < 3, ∀ s < 22, ∀ t, t ≤ s → sfbL freq t ≤ sfbL freq s := by decide +kernel
  exact boundBand_le_iff (mono freq hfreq) hs

theorem shortBoundBand_le_iff {freq s : Nat} {p : Part} (w : Nat) (hfreq : freq < 3) (hs : s < 13)
    (hmixed : p.info.mixedBlock = true → 3 ≤ s) :
    shortBoundBand freq p w ≤ s ↔ windowExtent freq p w ≤ sfbS freq s := by
  have mono : ∀ freq < 3, ∀ s < 13, ∀ t, t ≤ s → sfbS freq t ≤ sfbS freq s := by decide +kernel
  rw [← boundBand_le_iff (mono freq hfreq) hs, shortBoundBand]
  split_ifs with hm
  · exact max_le_iff.trans (and_iff_left (hmixed hm))
  · rfl

/-! ## Intensity lines (44_requantize_stereo.md R521 to R523) -/

section
variable {freq i s w f : Nat} {p : Part}

theorem intensityLine_long (h : linePlace freq p.info i = .long s) :
    intensityLine freq p i =
      if (p.info.blockType ≠ 2 ∧ longBoundBand freq (nonzeroExtent p.lines) ≤ s) ∧
          intensityPosition p.scf (.long s) ≤ 6 then
        some (intensityPosition p.scf (.long s))
      else none := by
  simp [intensityLine, h, Nat.lt_succ_iff]

theorem intensityLine_short (h : linePlace freq p.info i = .short s w f) :
    intensityLine freq p i =
      if shortBoundBand freq p w ≤ s ∧ intensityPosition p.scf (.short s w f) ≤ 6 then
        some (intensityPosition p.scf (.short s w f))
      else none := by
  simp [intensityLine, h, Nat.lt_succ_iff]

end

/-- Channel 1 is 0 from the first line of a long band on, or from the lowest frequency of a short band on in its window;
the long bands of a mixed layout do not count. -/
def SilentFrom (freq : Nat) (p : Part) : LinePlace → Prop
  | .long s => p.info.blockType ≠ 2 ∧ ∀ k, sfbL freq s ≤ k → k < 576 → p.lines.toList.getD k 0 = 0
  | .short s w _ => ∀ k s' f', k < 576 → linePlace freq p.info k = .short s' w f' →
      sfbS freq s ≤ sfbS freq s' + f' → p.lines.toList.getD k 0 = 0

section
variable {freq i : Nat} {p : Part}

theorem longBand_lt {s : Nat} (hfreq : freq < 3) (hi : i < 576) (h : linePlace freq p.info i = .long s) : s < 22 := by
  have hband := (longBandOf_holds hfreq hi).1
  unfold linePlace shortPlace at h
  split_ifs at h
  all_goals exact LinePlace.long.inj h ▸ hband

theorem shortBand_lt {s w f : Nat} (hfreq : freq < 3) (hi : i < 576)
    (h : linePlace freq p.info i = .short s w f) : s < 13 ∧ (p.info.mixedBlock = true → 3 ≤ s) := by
  have hband := (shortBandOf_holds hfreq hi).1
  have hmixed := three_le_shortBandOf hfreq hi
  unfold linePlace shortPlace at h
  split_ifs at h with hb hlow
  cases h
  refine ⟨hband, fun hm => hmixed ?_⟩
  simpa [hm] using hlow

/-- The intensity lines are those of the bands where channel 1 has fallen silent, with a position of at most 6. -/
theorem intensityLine_eq_some_iff {pos : Nat} (hfreq : freq < 3) (hi : i < 576) :
    intensityLine freq p i = some pos ↔
      (SilentFrom freq p (linePlace freq p.info i) ∧ intensityPosition p.scf (linePlace freq p.info i) ≤ 6) ∧
        intensityPosition p.scf (linePlace freq p.info i) = pos := by
  cases hplace : linePlace freq p.info i with
  | long s =>
    rw [intensityLine_long hplace, Option.ite_none_right_eq_some, Option.some_inj,
      longBoundBand_le_iff _ hfreq (longBand_lt hfreq hi hplace), nonzeroExtent_le_iff]
    rfl
  | short s w f =>
    obtain ⟨hs, hmixed⟩ := shortBand_lt hfreq hi hplace
    rw [intensityLine_short hplace, Option.ite_none_right_eq_some, Option.some_inj,
      shortBoundBand_le_iff w hfreq hs hmixed, windowExtent_le_iff]
    rfl

theorem intensityLine_eq_none (hfreq : freq < 3) (hi : i < 576)
    (h : ¬ (SilentFrom freq p (linePlace freq p.info i) ∧ intensityPosition p.scf (linePlace freq p.info i) ≤ 6)) :
    intensityLine freq p i = none :=
  Option.eq_none_iff_forall_ne_some.2 fun _ hpos => h ((intensityLine_eq_some_iff hfreq hi).1 hpos).1

/-! ## A silent channel 1 with every position 0 (44_requantize_stereo.md R526) -/

theorem intensityPosition_zero {f : Scalefac} (hlong : ∀ k ∈ f.long.toList, k = 0) (hshort : ∀ k ∈ f.short.toList, k = 0)
    (x : LinePlace) : intensityPosition f x = 0 := by
  cases x with
  | long s => exact getD_of_forall (P := (· = 0)) hlong rfl _
  | short s w _ => exact getD_of_forall (P := (· = 0)) hshort rfl _

theorem longBoundBand_zero (freq : Nat) : longBoundBand freq 0 = 0 := by
  simp [longBoundBand, List.range_succ_eq_map]

theorem shortBoundBand_zero {w : Nat} (hm : p.info.mixedBlock = false) (h : windowExtent freq p w = 0) :
    shortBoundBand freq p w = 0 := by
  simp [shortBoundBand, h, hm, List.range_succ_eq_map]

/-- Every line is an intensity line of position 0, at any sampling_frequency. -/
theorem intensityLine_of_silent (hlayout : ¬ (p.info.blockType = 2 ∧ p.info.mixedBlock = true))
    (hlines : ∀ v ∈ p.lines.toList, v = 0) (hlong : ∀ k ∈ p.scf.long.toList, k = 0)
    (hshort : ∀ k ∈ p.scf.short.toList, k = 0) : intensityLine freq p i = some 0 := by
  have hzero (k : Nat) : p.lines.toList.getD k 0 = 0 := getD_of_forall (P := (· = 0)) hlines rfl k
  have hpos := intensityPosition_zero hlong hshort
  by_cases hb : p.info.blockType = 2
  · have hm : p.info.mixedBlock = false := by simpa [hb] using hlayout
    have hext (w : Nat) : windowExtent freq p w = 0 :=
      Nat.le_zero.1 ((windowExtent_le_iff freq p w 0).2 fun k _ _ _ _ _ => hzero k)
    rw [intensityLine_short ((linePlace_short hb (.inl hm)).trans rfl), shortBoundBand_zero hm (hext _), hpos]
    simp
  · have hext : nonzeroExtent p.lines = 0 := Nat.le_zero.1 ((nonzeroExtent_le_iff p.lines 0).2 fun k _ _ => hzero k)
    rw [intensityLine_long (linePlace_long hb), hext, longBoundBand_zero, hpos]
    simp [hb]

end

/-! ## The two channels of a line (44_requantize_stereo.md R520, R523, R524) -/

section
variable {D : Nat → ℝ} {h : Header} {p0 p1 : Part} {i : Nat}

/-- The spectrum of a two-channel frame is the pair that joint stereo makes of its two channels' values. -/
theorem spectrum_pair {y : ℝ × ℝ} (hn : h.nch = 2)
    (hy : stereoLine (realCoefs D) h p1 (requantize (realCoefs D) h.samplingFrequency.toNat p0 i)
      (requantize (realCoefs D) h.samplingFrequency.toNat p1 i) i = y) :
    spectrum (realCoefs D) h p0 p1 0 i = y.1 ∧ spectrum (realCoefs D) h p0 p1 1 i = y.2 := by
  simp [spectrum, hn, hy]

variable {x0 x1 : ℝ}

theorem stereoLine_intensity {pos : Nat} (hint : h.intensityStereo = true)
    (hpos : intensityLine h.samplingFrequency.toNat p1 i = some pos) :
    stereoLine (realCoefs D) h p1 x0 x1 i = (x0 * (realCoefs D).kL pos, x0 * (realCoefs D).kR pos) := by
  simp [stereoLine, hint, hpos]

theorem stereoLine_midSide (hnot : h.intensityStereo = true → intensityLine h.samplingFrequency.toNat p1 i = none)
    (hms : h.msStereo = true) :
    stereoLine (realCoefs D) h p1 x0 x1 i = ((x0 + x1) / Real.sqrt 2, (x0 - x1) / Real.sqrt 2) := by
  simp +contextual [stereoLine, hnot, hms, realCoefs, div_eq_mul_inv]

theorem stereoLine_kept (hnot : h.intensityStereo = true → intensityLine h.samplingFrequency.toNat p1 i = none)
    (hms : h.msStereo = false) : stereoLine (realCoefs D) h p1 x0 x1 i = (x0, x1) := by
  simp +contextual [stereoLine, hnot, hms]

end

theorem Header.msStereo_of_joint {h : Header} (hj : h.joint = true) : h.msStereo = h.modeExtension.getLsbD 1 := by
  simp_all [Header.joint, Header.msStereo]

theorem Header.intensityStereo_of_joint {h : Header} (hj : h.joint = true) :
    h.intensityStereo = h.modeExtension.getLsbD 0 := by
  simp_all [Header.joint, Header.intensityStereo]

theorem Header.freq_lt_three {h : Header} (hf : h.samplingFrequency ≠ 3#2) : h.samplingFrequency.toNat < 3 := by
  bv_omega

/-- In joint stereo a line is no intensity line where mode_extension, its band or its position says so. -/
theorem intensityLine_none_of_joint {h : Header} {p1 : Part} {i : Nat} (hf : h.samplingFrequency ≠ 3#2)
    (hj : h.joint = true) (hi : i < 576)
    (hnot : ¬ (h.modeExtension.getLsbD 0 = true ∧ SilentFrom h.samplingFrequency.toNat p1
      (linePlace h.samplingFrequency.toNat p1.info i) ∧
      intensityPosition p1.scf (linePlace h.samplingFrequency.toNat p1.info i) ≤ 6)) :
    h.intensityStereo = true → intensityLine h.samplingFrequency.toNat p1 i = none := fun hint =>
  intensityLine_eq_none (Header.freq_lt_three hf) hi fun hline =>
    hnot ⟨(Header.intensityStereo_of_joint hj).symm.trans hint, hline⟩

/-- Outside joint stereo, and with mode_extension 0, neither kind of joint stereo is on (44_requantize_stereo.md
R524). -/
theorem Header.stereo_off {h : Header} (hoff : h.joint = false ∨ h.modeExtension = 0#2) :
    h.msStereo = false ∧ h.intensityStereo = false := by
  rcases hoff with hj | hm
  · simp_all [Header.joint, Header.msStereo, Header.intensityStereo]
  · simp [Header.msStereo, Header.intensityStereo, hm]

/-- Settles O60: a frame's header tells which kinds of joint stereo are on, and a line is an intensity line exactly when
its band lies above channel 1's nonzero values and its position is at most 6. -/
theorem jointStereoReference : Obligations.JointStereoReference := by
  intro D h p0 p1 i hn hi
  refine ⟨fun hoff => ?off, fun hj hm => ?midSide, fun hj hm hlayout hlines hlong hshort => ?silent,
    fun hf hj => ⟨fun ⟨hm, hband, hpos⟩ => ?intensity, fun hnot hm => ?notIntensityMidSide, fun hnot hm => ?kept⟩⟩
  case off =>
    obtain ⟨hms, hint⟩ := Header.stereo_off hoff
    exact spectrum_pair hn (stereoLine_kept (by simp [hint]) hms)
  case midSide =>
    have hms : h.msStereo = true := (Header.msStereo_of_joint hj).trans (by simp [hm])
    have hint : h.intensityStereo = false := (Header.intensityStereo_of_joint hj).trans (by simp [hm])
    exact spectrum_pair hn (stereoLine_midSide (by simp [hint]) hms)
  case silent =>
    have hint := (Header.intensityStereo_of_joint hj).trans hm
    have hy := spectrum_pair (D := D) (p0 := p0) (i := i) hn
      (stereoLine_intensity hint (intensityLine_of_silent hlayout hlines hlong hshort))
    simpa [realCoefs] using hy
  case intensity =>
    have hint := (Header.intensityStereo_of_joint hj).trans hm
    exact spectrum_pair hn (stereoLine_intensity hint
      ((intensityLine_eq_some_iff (Header.freq_lt_three hf) hi).2 ⟨⟨hband, hpos⟩, rfl⟩))
  case notIntensityMidSide =>
    exact spectrum_pair hn (stereoLine_midSide (intensityLine_none_of_joint hf hj hi hnot)
      ((Header.msStereo_of_joint hj).trans hm))
  case kept =>
    exact spectrum_pair hn (stereoLine_kept (intensityLine_none_of_joint hf hj hi hnot)
      ((Header.msStereo_of_joint hj).trans hm))

end Sys2Proof.Machine
end

section
/-! PROOF. Two runs that agree on what decoding depends on keep agreeing, and so do their answers (O48). -/

namespace Sys2Proof.Machine

/-! ## Delivered PCM (46_pcm_output.md R606, R607) -/

theorem pcmChannelCount_le_two (nch : Nat) (force : Bool) : pcmChannelCount nch force ≤ 2 := by
  unfold pcmChannelCount
  split_ifs <;> decide

/-- A delivery writes every entry of its valid range, whatever the entries held (46_pcm_output.md R607). -/
theorem interleave_getD_valid {nch chans k : Nat} (out : FxOut SynChan × FxOut SynChan) (old : Vector Pcm 2304)
    (hchans : chans ≤ 2) (hk : k < chans * 1152) :
    (interleave nch chans out old).toList.getD k 0 =
      pcmOfSample ((outputChannel nch out (k % chans)).toList.getD (k / chans) 0) := by
  rw [interleave, tabulate_getD _ _ _ _ (by omega), if_pos hk]

/-- The valid range after a delivery is 1152 samples of each output channel (47_session_commands.md R673). -/
theorem deliver_validRange (H : Word) (f : FrameIn) (r : List Byte) (s : State) :
    (deliver H f r s).pcmLength.toNat * (deliver H f r s).pcmChannels.toNat =
      pcmChannelCount (headerOfWord H).nch (forceStereo s) * 1152 := by
  have hcount := pcmChannelCount_le_two (headerOfWord H).nch (forceStereo s)
  rw [deliver_pcmLength, deliver_pcmChannels, BitVec.toNat_ofNat, Nat.mod_eq_of_lt (by omega), Nat.mul_comm]
  rfl

/-! ## States that show the same -/

/-- `m` holds the valid PCM entries of `s` (20_memory.md R172). -/
def HoldsValidPcm (s : State) (m : Vector Pcm 2304) : Prop :=
  s.pcmValid = true →
    ∀ k, k < s.pcmLength.toNat * s.pcmChannels.toNat → m.toList.getD k 0 = s.pcmMem.toList.getD k 0

/-- Two states that differ at most in the session that an OPEN in progress will replace, in PCM entries that are not
valid, and, unless `P` holds, in the last answer on the bus. With the buffer's hidden bytes, which `SameInput` speaks
of, this is `SameRun`. -/
def SameShown (P : Prop) (s t : State) : Prop :=
  ∃ session m data, t = { s with session := session, pcmMem := m, busData := data } ∧
    (s.pending ≠ .opening → session = s.session) ∧ HoldsValidPcm s m ∧ (P → data = s.busData)

/-- Two states of the same run differ in hidden bytes of the buffer and show the same. -/
theorem SameRun.split {P : Prop} {s t : State} (h : SameRun s t) (hP : P → t.busData = s.busData) :
    SameInput s { s with ibuf := t.ibuf } ∧ SameShown P { s with ibuf := t.ibuf } t :=
  ⟨⟨rfl, h.input⟩, t.session, t.pcmMem, t.busData, h.rest, h.session, h.pcm, hP⟩

/-- States that differ in hidden bytes and otherwise show the same are of the same run. -/
theorem SameInput.sameRun {P : Prop} {s u t : State} (h : SameInput s u) (hu : SameShown P u t) :
    SameRun s t ∧ (P → t.busData = s.busData) := by
  obtain ⟨m, rfl, hread⟩ := sameInput_iff.1 h
  obtain ⟨session, mem, data, rfl, hsession, hpcm, hdata⟩ := hu
  exact ⟨⟨rfl, hsession, hread, hpcm⟩, hdata⟩

section
variable {P : Prop} {s t : State}

/-- Where no OPEN is in progress the sessions agree. -/
theorem SameShown.session_eq (h : SameShown P s t) (hp : s.pending ≠ .opening) : t.session = s.session := by
  obtain ⟨session, m, data, rfl, hsession, -, -⟩ := h
  exact hsession hp

theorem SameShown.inputs_eq (h : SameShown P s t) : t.inputs = s.inputs := by
  obtain ⟨session, m, data, rfl, -⟩ := h
  rfl

/-- The answer to an access is the same in both where the data are. -/
theorem SameShown.respond (h : SameShown P s t) (e : Bool) {data data' : Word} (hd : P → data' = data) :
    SameShown P (respond e data s) (respond e data' t) := by
  obtain ⟨session, m, -, rfl, hsession, hpcm, -⟩ := h
  exact ⟨session, m, data', rfl, hsession, hpcm, hd⟩

end

/-! ## Operations that do not touch PCM_MEM and the bus -/

/-- An operation that neither reads nor writes PCM_MEM and the answer on the bus, and makes no entry valid. -/
structure PcmBlind (F : State → State) : Prop where
  commutes : ∀ s m data, F { s with pcmMem := m, busData := data } = { F s with pcmMem := m, busData := data }
  valid    : ∀ s, (F s).pcmValid = true →
    s.pcmValid = true ∧ (F s).pcmLength = s.pcmLength ∧ (F s).pcmChannels = s.pcmChannels

/-- One that neither reads nor writes the session and the command in progress either. -/
structure SessionBlind (F : State → State) : Prop extends PcmBlind F where
  session : ∀ s session, F { s with session := session } = { F s with session := session }
  pending : ∀ s, (F s).pending = s.pending

theorem PcmBlind.stored_eq {F : State → State} (hF : PcmBlind F) (s : State) :
    (F s).pcmMem = s.pcmMem ∧ (F s).busData = s.busData :=
  ⟨(congrArg State.pcmMem (hF.commutes s s.pcmMem s.busData) :),
    (congrArg State.busData (hF.commutes s s.pcmMem s.busData) :)⟩

theorem PcmBlind.holdsValidPcm {F : State → State} (hF : PcmBlind F) {s : State} {m : Vector Pcm 2304}
    (h : HoldsValidPcm s m) : HoldsValidPcm (F s) m := by
  intro hv
  obtain ⟨hvalid, hlength, hchannels⟩ := hF.valid s hv
  rw [hlength, hchannels, (hF.stored_eq s).1]
  exact h hvalid

section
variable {P : Prop} {F : State → State} {s t : State}

/-- With equal sessions such an operation keeps what the two states show. -/
theorem PcmBlind.sameShown (hF : PcmBlind F) (hs : t.session = s.session) (h : SameShown P s t) :
    SameShown P (F s) (F t) := by
  obtain ⟨session, m, data, rfl, -, hpcm, hdata⟩ := h
  obtain rfl : session = s.session := hs
  exact ⟨_, m, data, hF.commutes s m data, fun _ => rfl, hF.holdsValidPcm hpcm,
    fun hP => (hdata hP).trans (hF.stored_eq s).2.symm⟩

theorem SessionBlind.sameShown (hF : SessionBlind F) (h : SameShown P s t) : SameShown P (F s) (F t) := by
  obtain ⟨session, m, data, rfl, hsession, hpcm, hdata⟩ := h
  have hcomm : F { s with session := session, pcmMem := m, busData := data } =
      { F s with session := session, pcmMem := m, busData := data } :=
    (hF.commutes { s with session := session } m data).trans (by rw [hF.session])
  have hsame : (F s).session = s.session := (congrArg State.session (hF.session s s.session) :)
  refine ⟨session, m, data, hcomm, fun hp => ?_, hF.holdsValidPcm hpcm,
    fun hP => (hdata hP).trans (hF.stored_eq s).2.symm⟩
  rw [hF.pending] at hp
  exact (hsession hp).trans hsame.symm

end

theorem sessionBlind_tick : SessionBlind tick :=
  ⟨⟨fun _ _ _ => rfl, fun _ h => ⟨h, rfl, rfl⟩⟩, fun _ _ => rfl, fun _ => rfl⟩

theorem sessionBlind_accept : SessionBlind accept :=
  ⟨⟨fun _ _ _ => rfl, fun _ h => ⟨h, rfl, rfl⟩⟩, fun _ _ => rfl, fun _ => rfl⟩

theorem sessionBlind_raiseHostError (e : HostErr) : SessionBlind (raiseHostError e) :=
  ⟨⟨fun _ _ _ => rfl, fun _ h => ⟨h, rfl, rfl⟩⟩, fun _ _ => rfl, fun _ => rfl⟩

/-- An IN_DATA write reads the reader's fields only (40_bitstream_reader.md R304). -/
theorem sessionBlind_writeInData (v : Word) : SessionBlind (writeInData v) := by
  refine ⟨⟨fun s m data => ?_, fun s => ?_⟩, fun s session => ?_, fun s => ?_⟩
  case refine_1 => unfold writeInData; split_ifs <;> rfl
  case refine_3 => unfold writeInData; split_ifs <;> rfl
  all_goals rcases writeInData_cases v s with ⟨-, e⟩ | ⟨-, -, e⟩ | ⟨-, -, e⟩ <;> rw [e] <;> simp

theorem pcmBlind_syncSkip : PcmBlind syncSkip := ⟨fun _ _ _ => rfl, fun _ h => ⟨h, rfl, rfl⟩⟩

theorem pcmBlind_dropFrame (c : Cause) (n : Nat) (r : List Byte) : PcmBlind (dropFrame c n r) :=
  ⟨fun _ _ _ => by simp only [dropFrame], fun _ h => ⟨h, rfl, rfl⟩⟩

theorem pcmBlind_refillRequest : PcmBlind refillRequest := ⟨fun _ _ _ => rfl, fun _ h => ⟨h, rfl, rfl⟩⟩

theorem pcmBlind_endOfStream : PcmBlind endOfStream := ⟨fun _ _ _ => rfl, fun _ h => absurd h Bool.false_ne_true⟩

/-- PULL's two outcomes leave no entry valid (47_session_commands.md R670). -/
theorem pcmBlind_pullEffect : PcmBlind pullEffect := by
  refine ⟨fun s m data => ?_, fun s => ?_⟩ <;> by_cases h : s.session = .exhausted
  · rw [pullEffect_exhausted h, pullEffect_exhausted (s := { s with pcmMem := m, busData := data }) h]
    rfl
  · rw [pullEffect_streaming h, pullEffect_streaming (s := { s with pcmMem := m, busData := data }) h]
    rfl
  · simp [pullEffect_exhausted h]
  · simp [pullEffect_streaming h]

/-- An accepted answer moves the reader and the session only (40_bitstream_reader.md R305; 47_session_commands.md R661,
R675). -/
theorem pcmBlind_refillEffect (readError : Bool) : PcmBlind (refillEffect readError) := by
  refine ⟨fun s m data => ?_, fun s => ?_⟩ <;> by_cases h : s.pending = .opening <;> cases readError
  · rw [refillEffect_open h, refillEffect_open (s := { s with pcmMem := m, busData := data }) h]
    rfl
  · rw [refillEffect_open_err h, refillEffect_open_err (s := { s with pcmMem := m, busData := data }) h]
    rfl
  · rw [refillEffect_pull h, refillEffect_pull (s := { s with pcmMem := m, busData := data }) h]
    rfl
  · rw [refillEffect_pull_err h, refillEffect_pull_err (s := { s with pcmMem := m, busData := data }) h]
    rfl
  · simp [refillEffect_open h]
  · simp [refillEffect_open_err h]
  · simp [refillEffect_pull h]
  · simp [refillEffect_pull_err h]

/-- Of the commands only RESET writes PCM_MEM. -/
theorem pcmBlind_effectOf {i : Instr} (hi : i ≠ .reset) : PcmBlind (effectOf i) := by
  cases i with
  | reset => exact absurd rfl hi
  | nop => exact ⟨fun _ _ _ => rfl, fun _ h => ⟨h, rfl, rfl⟩⟩
  | openFile => exact ⟨fun _ _ _ => rfl, fun _ h => absurd h Bool.false_ne_true⟩
  | pull => exact pcmBlind_pullEffect
  | close => exact ⟨fun _ _ _ => rfl, fun _ h => absurd h Bool.false_ne_true⟩
  | refillDone => exact pcmBlind_refillEffect false
  | refillDoneErr => exact pcmBlind_refillEffect true
  | irqAck => exact sessionBlind_accept.toPcmBlind

/-- The answer to an OPEN does not depend on the session that the OPEN replaces (47_session_commands.md R661). -/
theorem refillEffect_open_session {s : State} (h : s.pending = .opening) (readError : Bool) (session : Session) :
    refillEffect readError { s with session := session } = refillEffect readError s := by
  cases readError
  · rw [refillEffect_open h, refillEffect_open (s := { s with session := session }) h]
    rfl
  · rw [refillEffect_open_err h, refillEffect_open_err (s := { s with session := session }) h]
    rfl

/-! ## The commands -/

/-- An OPEN in progress waits for its fill (47_session_commands.md R650, R660). -/
def OpensByFill (s : State) : Prop := s.pending = .opening → s.engine = .needData

theorem ProtocolInv.opensByFill {s : State} (h : ProtocolInv s) : OpensByFill s := by
  intro hp
  cases he : s.engine with
  | idle => simp [h.pendingNone.2 he] at hp
  | busy => simp [h.busyPulls he] at hp
  | needData => rfl

section
variable {P : Prop} {s t : State}

/-- RESET leaves nothing of the state before it that the two could differ in, but for the bus (10_state.md R120). -/
theorem sameShown_resetBlock (h : SameShown P s t) : SameShown P (resetBlock s) (resetBlock t) := by
  obtain ⟨session, m, data, rfl, -, -, hdata⟩ := h
  exact ⟨_, _, data, rfl, fun _ => rfl, fun _ _ _ => rfl, hdata⟩

/-- The table of R682 reads the session only when the engine is IDLE, where no OPEN is in progress. -/
theorem rejection_sameShown (i : Instr) (hopen : OpensByFill s) (h : SameShown P s t) :
    rejection i t.engine t.session = rejection i s.engine s.session := by
  by_cases hs : t.session = s.session
  · obtain ⟨session, m, data, rfl, -⟩ := h
    exact congrArg (rejection i s.engine) hs
  · have hn : s.engine = .needData := hopen (by_contra fun hp => hs (h.session_eq hp))
    obtain ⟨session, m, data, rfl, -⟩ := h
    show rejection i s.engine session = _
    rw [hn]
    cases i <;> rfl

/-- While an OPEN is in progress, its answers write the session, and of the other accepted commands IRQ_ACK does not
read it. -/
theorem sameShown_effectOf {i : Instr} (hopen : OpensByFill s) (ha : rejection i s.engine s.session = none)
    (h : SameShown P s t) : SameShown P (effectOf i s) (effectOf i t) := by
  by_cases hi : i = .reset
  · rw [hi]
    exact sameShown_resetBlock h
  by_cases hs : t.session = s.session
  · exact (pcmBlind_effectOf hi).sameShown hs h
  have hp : s.pending = .opening := by_contra fun hp => hs (h.session_eq hp)
  have answer (readError : Bool) : SameShown P (refillEffect readError s) (refillEffect readError t) := by
    obtain ⟨session, m, data, rfl, -, hpcm, hdata⟩ := h
    have hsame : SameShown P s { s with pcmMem := m, busData := data } := ⟨_, m, data, rfl, fun _ => rfl, hpcm, hdata⟩
    have hkept := (pcmBlind_refillEffect readError).sameShown (by rfl) hsame
    rwa [← refillEffect_open_session (s := { s with pcmMem := m, busData := data }) hp readError session] at hkept
  have hstate := accepted_state ha
  have hn := (hopen hp).symm
  cases i with
  | reset => exact absurd rfl hi
  | refillDone => exact answer false
  | refillDoneErr => exact answer true
  | irqAck => exact sessionBlind_accept.sameShown h
  | pull => exact nomatch hn.trans hstate.1
  | _ => exact nomatch hn.trans hstate

/-- Where the first answers a next state, so does the second, and the two show the same. -/
def NextShown (P : Prop) (r q : Result) : Prop := ∀ s', r = .next s' → ∃ t', q = .next t' ∧ SameShown P s' t'

theorem SameShown.nextShown (h : SameShown P s t) : NextShown P (.next s) (.next t) := by
  rintro s' ⟨⟩
  exact ⟨t, rfl, h⟩

theorem nextShown_exec (i : Instr) (hopen : OpensByFill s) (h : SameShown P s t) :
    NextShown P (exec i s) (exec i t) := by
  have hrej := rejection_sameShown i hopen h
  rw [exec_eq_issue, exec_eq_issue]
  rcases issue_cases i (effectOf i) s with ⟨e, hr, he⟩ | ⟨hr, he⟩ <;> rw [he]
  · rw [issue_rejected (hrej.trans hr)]
    exact ((sessionBlind_raiseHostError e).sameShown h).nextShown
  · rw [issue_accepted (hrej.trans hr)]
    exact (sameShown_effectOf hopen hr h).nextShown

/-! ## The engine's step -/

/-- A delivery makes the same PCM valid in both (47_session_commands.md R673). -/
theorem sameShown_deliver (H : Word) (f : FrameIn) (r : List Byte) (hs : t.session = s.session)
    (h : SameShown P s t) : SameShown P (deliver H f r s) (deliver H f r t) := by
  obtain ⟨session, m, data, rfl, -, -, hdata⟩ := h
  obtain rfl : session = s.session := hs
  refine ⟨_, interleave (headerOfWord H).nch (pcmChannelCount (headerOfWord H).nch (forceStereo s))
    (fxFrame f s.syn0 s.syn1) m, data, by simp only [deliver, complete, forceStereo], fun _ => rfl,
    fun _ k hk => ?_, hdata⟩
  rw [deliver_validRange] at hk
  rw [deliver_pcmMem, interleave_getD_valid _ _ (pcmChannelCount_le_two _ _) hk,
    interleave_getD_valid _ _ (pcmChannelCount_le_two _ _) hk]

/-- Both states take the same outcome on the same frame: none of it reads PCM_MEM or the bus. -/
theorem sameShown_iteration (hs : t.session = s.session) (h : SameShown P s t) :
    SameShown P (iteration s) (iteration t) := by
  obtain ⟨hstage, hres, hframe⟩ : headerStage t = headerStage s ∧ t.res = s.res ∧
      ∀ x, frameBytes t x = frameBytes s x := by
    obtain ⟨session, m, data, rfl, -⟩ := h
    exact ⟨rfl, rfl, fun _ => rfl⟩
  rcases iteration_cases s with ⟨hh, e⟩ | ⟨hh, e⟩ | ⟨hh, e⟩ | ⟨H, c, hh, hd, e⟩ | ⟨H, f, hh, hd, e⟩ <;>
    rw [← hstage] at hh <;> rw [e]
  · rw [iteration_refill hh]
    exact pcmBlind_refillRequest.sameShown hs h
  · rw [iteration_endOfStream hh]
    exact pcmBlind_endOfStream.sameShown hs h
  · rw [iteration_skip hh]
    exact pcmBlind_syncSkip.sameShown hs h
  · rw [iteration_drop hh (by rw [hframe, hres, hd]), hframe, hres]
    exact (pcmBlind_dropFrame _ _ _).sameShown hs h
  · rw [iteration_deliver hh (by rw [hframe, hres, hd]), hframe, hres]
    exact sameShown_deliver _ _ _ hs h

theorem sameShown_engineStep (h : SameShown P s t) : SameShown P (engineStep s) (engineStep t) := by
  have hiff : decoding t ↔ decoding s := by obtain ⟨session, m, data, rfl, -⟩ := h; rfl
  by_cases hdec : decoding s
  · rw [engineStep_decoding hdec, engineStep_decoding (hiff.2 hdec)]
    exact sameShown_iteration (h.session_eq (by simp [hdec.2])) (sessionBlind_tick.sameShown h)
  · rw [engineStep_waiting hdec, engineStep_waiting (mt hiff.1 hdec)]
    exact h

/-! ## Accesses, inputs and the step -/

/-- No register but STATUS shows the session, and none PCM_MEM or the bus (10_state.md R55). -/
theorem readReg_sameShown {r : Reg} (hr : s.pending = .opening → r ≠ .status) (h : SameShown P s t) :
    readReg t r = readReg s r := by
  by_cases hs : t.session = s.session
  · obtain ⟨session, m, data, rfl, -⟩ := h
    obtain rfl : session = s.session := hs
    cases r <;> rfl
  · have hne := hr (by_contra fun hp => hs (h.session_eq hp))
    obtain ⟨session, m, data, rfl, -⟩ := h
    cases r with
    | status => exact absurd rfl hne
    | _ => rfl

/-- A valid entry is the same in both, and any other is the free value of the same `epoch` (20_memory.md R172;
assumption log 1). -/
theorem pcmEntry_sameShown (k : Nat) (h : SameShown P s t) : pcmEntry t k = pcmEntry s k := by
  obtain ⟨session, m, data, rfl, -, hpcm, -⟩ := h
  by_cases hv : s.pcmValid = true ∧ k < s.pcmLength.toNat * s.pcmChannels.toNat
  · obtain ⟨hvalid, hk⟩ := hv
    rw [pcmEntry_valid hvalid hk]
    exact (pcmEntry_valid (s := { s with session := session, pcmMem := m, busData := data }) hvalid hk).trans
      (hpcm hvalid k hk)
  · have hinvalid : s.pcmValid = false ∨ s.pcmLength.toNat * s.pcmChannels.toNat ≤ k := by
      rwa [not_and_or, Bool.not_eq_true, Nat.not_lt] at hv
    rw [pcmEntry_invalid hinvalid]
    exact pcmEntry_invalid (s := { s with session := session, pcmMem := m, busData := data }) hinvalid

/-- A read answers the same, unless it is of STATUS while an OPEN is in progress. -/
theorem nextShown_hostRead {off len : Nat} (hr : P → s.pending = .opening → ¬ (off = 0x00C ∧ len = 4))
    (h : SameShown P s t) : NextShown P (hostRead off len s) (hostRead off len t) := by
  have hepoch : t.epoch = s.epoch := by obtain ⟨session, m, data, rfl, -⟩ := h; rfl
  unfold hostRead
  simp only [pcmEntry_sameShown _ h, hepoch]
  cases ht : targetOf off len with
  | outside => exact fun _ => nofun
  | reg r =>
    obtain ⟨rfl, rfl⟩ := targetOf_reg ht
    refine (h.respond false fun hP => readReg_sameShown (fun hp hstatus => hr hP hp ?_) h).nextShown
    rw [hstatus]
    exact ⟨rfl, rfl⟩
  | _ => exact (h.respond _ fun _ => rfl).nextShown

theorem nextShown_writeReg (r : Reg) (v : Word) (hopen : OpensByFill s) (h : SameShown P s t) :
    NextShown P (writeReg r v s) (writeReg r v t) := by
  cases r with
  | cmd =>
    show NextShown P (writeCmd v s) (writeCmd v t)
    unfold writeCmd
    cases decode v with
    | error _ => exact ((sessionBlind_raiseHostError _).sameShown h).nextShown
    | ok i => exact nextShown_exec i hopen h
  | inData => exact ((sessionBlind_writeInData v).sameShown h).nextShown
  | ctrl =>
    have hb : SessionBlind fun s => { s with ctrl := v &&& ctrlMask } :=
      ⟨⟨fun _ _ _ => rfl, fun _ h => ⟨h, rfl, rfl⟩⟩, fun _ _ => rfl, fun _ => rfl⟩
    exact (hb.sameShown h).nextShown
  | dbgSel =>
    have hb : SessionBlind fun s => { s with dbgSel := v &&& dbgSelMask } :=
      ⟨⟨fun _ _ _ => rfl, fun _ h => ⟨h, rfl, rfl⟩⟩, fun _ _ => rfl, fun _ => rfl⟩
    exact (hb.sameShown h).nextShown
  | _ => exact h.nextShown

theorem nextShown_hostWrite (off len : Nat) (v : Word) (hopen : OpensByFill s) (h : SameShown P s t) :
    NextShown P (hostWrite off len v s) (hostWrite off len v t) := by
  have hbegun (e : Bool) : SameShown P (respond e 0 (tick s)) (respond e 0 (tick t)) :=
    (sessionBlind_tick.sameShown h).respond e fun _ => rfl
  unfold hostWrite
  cases targetOf off len with
  | outside => exact fun _ => nofun
  | reg r => exact nextShown_writeReg r v hopen (hbegun false)
  | _ => exact (hbegun _).nextShown

/-- Both states take the same input or the engine's turn. -/
theorem nextShown_step (hopen : OpensByFill s) (h : SameShown P s t)
    (hr : P → s.pending = .opening → ∀ es, s.inputs ≠ .read 0x00C 4 :: es) : NextShown P (step s) (step t) := by
  have hinputs := h.inputs_eq
  cases hi : s.inputs with
  | nil =>
    rw [step_nil hi, step_nil (hinputs.trans hi)]
    exact (sameShown_engineStep h).nextShown
  | cons e es =>
    have hb : SessionBlind fun s => { s with inputs := es } :=
      ⟨⟨fun _ _ _ => rfl, fun _ h => ⟨h, rfl, rfl⟩⟩, fun _ _ => rfl, fun _ => rfl⟩
    have hbegun := hb.sameShown h
    rw [step_cons hi, step_cons (hinputs.trans hi)]
    cases e with
    | read off len =>
      refine nextShown_hostRead (fun hP hp hoff => hr hP hp es ?_) hbegun
      rw [hi, hoff.1, hoff.2]
    | write off len v => exact nextShown_hostWrite off len v hopen hbegun
    | engine => exact (sameShown_engineStep hbegun).nextShown
    | reset => exact (sameShown_resetBlock (sessionBlind_tick.sameShown hbegun)).nextShown

end

/-- Settles O48: the step goes through the state with the second run's buffer, of which hidden bytes are never observed,
to a state that shows the same. -/
theorem sameInputSamePcm : Obligations.SameInputSamePcm := by
  intro s t s' h hs ht hinv hstep
  obtain ⟨hinput, hshown⟩ := h.split (P := (s.pending = .opening → ∀ es, s.inputs ≠ .read 0x00C 4 :: es) ∧
    t.busData = s.busData) And.right
  obtain ⟨u', hu, hinput'⟩ := hiddenBytesNeverObserved s _ s' hinput hs ht hstep
  have hopen : OpensByFill { s with ibuf := t.ibuf } := hinv.opensByFill
  obtain ⟨t', hstep', hshown'⟩ := nextShown_step hopen hshown And.left u' hu
  obtain ⟨hrun, hdata⟩ := hinput'.sameRun hshown'
  exact ⟨t', hstep', hrun, fun hread hbus => hdata ⟨hread, hbus⟩⟩

end Sys2Proof.Machine
end

section
/-! PROOF. What clears and what writes the filterbank histories (O42), and the delivery of a silent frame (O57). -/

namespace Sys2Proof.Machine

/-! ## What writes the histories (45_filterbank.md R592) -/

/-- Both histories stay. -/
def SynKept (s t : State) : Prop := t.syn0 = s.syn0 ∧ t.syn1 = s.syn1

/-- Both histories are zero (10_state.md R120). -/
def SynCleared (t : State) : Prop := t.syn0 = zeroSyn ∧ t.syn1 = zeroSyn

theorem engineStep_syn (s : State) : SynKept s (engineStep s) ∨ Delivered s (engineStep s) := by
  by_cases h : decoding s
  · rw [engineStep_decoding h]
    rcases iteration_cases (tick s) with ⟨-, e⟩ | ⟨-, e⟩ | ⟨-, e⟩ | ⟨H, c, -, -, e⟩ | ⟨H, f, -, -, e⟩ <;> rw [e]
    case inr.inr.inr.inr => exact .inr ⟨h, rfl, rfl, rfl⟩
    all_goals exact .inl ⟨rfl, rfl⟩
  · exact .inl (by rw [engineStep_waiting h]; exact ⟨rfl, rfl⟩)

/-- Of what is neither a command nor a reset only a delivery writes the histories. -/
theorem PlainMove.syn {b t : State} (h : PlainMove b t) : SynKept b t ∨ Delivered b t := by
  rcases h with rfl | rfl | ⟨v, rfl⟩ | rfl | ⟨v, rfl⟩ | ⟨v, rfl⟩
  case inr.inl => exact engineStep_syn b
  case inr.inr.inl =>
    refine .inl ?_
    rcases writeInData_cases v b with ⟨-, e⟩ | ⟨-, -, e⟩ | ⟨-, -, e⟩ <;> rw [e] <;> exact ⟨rfl, rfl⟩
  all_goals exact .inl ⟨rfl, rfl⟩

/-- The commands that clear the histories (10_state.md R120). -/
def ClearsSyn (i : Instr) : Prop := i = .reset ∨ i = .openFile ∨ i = .close

theorem effectOf_synCleared {i : Instr} (s : State) (hi : ClearsSyn i) : SynCleared (effectOf i s) := by
  rcases hi with rfl | rfl | rfl <;> exact ⟨rfl, rfl⟩

theorem effectOf_synKept {i : Instr} (s : State) (hi : ¬ ClearsSyn i) : SynKept s (effectOf i s) := by
  cases i with
  | pull =>
    by_cases h : s.session = .exhausted
    · simp [effectOf, SynKept, pullEffect_exhausted h]
    · simp [effectOf, SynKept, pullEffect_streaming h]
  | refillDone =>
    by_cases h : s.pending = .opening
    · simp [effectOf, SynKept, refillEffect_open h]
    · simp [effectOf, SynKept, refillEffect_pull h]
  | refillDoneErr =>
    by_cases h : s.pending = .opening
    · simp [effectOf, SynKept, refillEffect_open_err h]
    · simp [effectOf, SynKept, refillEffect_pull_err h]
  | nop => exact ⟨rfl, rfl⟩
  | irqAck => exact ⟨rfl, rfl⟩
  | reset => exact absurd (.inl rfl) hi
  | openFile => exact absurd (.inr (.inl rfl)) hi
  | close => exact absurd (.inr (.inr rfl)) hi

theorem exec_syn {i : Instr} {s t : State} (h : exec i s = .next t) :
    SynKept s t ∨ (ClearsSyn i ∧ SynCleared t) := by
  rw [exec_eq_issue, Host.Outcome.next.injEq] at h
  subst h
  rcases issue_cases i (effectOf i) s with ⟨e, -, he⟩ | ⟨-, he⟩ <;> rw [he]
  · exact .inl ⟨rfl, rfl⟩
  · by_cases hi : ClearsSyn i
    · exact .inr ⟨hi, effectOf_synCleared s hi⟩
    · exact .inl (effectOf_synKept s hi)

/-- A step leaves the histories, clears them, or delivers a frame. -/
theorem step_syn {s t : State} (h : step s = .next t) : SynKept s t ∨
    ((nextIsReset s = true ∨ ∃ i, nextCommand s = some i ∧ ClearsSyn i) ∧ SynCleared t) ∨ Delivered s t := by
  obtain ⟨b, hb, ⟨-, -, hp⟩ | ⟨-, i, hi, hx⟩ | ⟨-, hr, rfl⟩⟩ := step_moves h
  all_goals have hkept {u : State} (hk : SynKept b u) : SynKept s u := by rw [hb] at hk; exact hk
  · rcases hp.syn with hk | hdelivered
    · exact .inl (hkept hk)
    · exact .inr (.inr (hb.delivered hdelivered))
  · rcases exec_syn hx with hk | ⟨hclears, hzero⟩
    · exact .inl (hkept hk)
    · exact .inr (.inl ⟨.inr ⟨i, hi, hclears⟩, hzero⟩)
  · exact .inr (.inl ⟨.inl hr, rfl, rfl⟩)

/-- Where OPEN and CLOSE are accepted, and for RESET everywhere, the histories are cleared. -/
theorem exec_synCleared {i : Instr} {s : State} (hi : ClearsSyn i) (ha : rejection i s.engine s.session = none) :
    ∃ t, exec i s = .next t ∧ SynCleared t :=
  ⟨effectOf i s, (exec_eq_issue i s).trans (congrArg _ (issue_accepted ha)), effectOf_synCleared s hi⟩

/-- Settles O42: of the moves of a step only a delivery writes the histories, and only OPEN, CLOSE, RESET and a reset
clear them. -/
theorem synWritesOnly : Obligations.SynWritesOnly := by
  refine ⟨fun s t hstep hne => ?writes, fun s => exec_synCleared (.inl rfl) rfl, fun s t hr hstep => ?reset,
    fun s hidle i hi => ?accepted⟩
  case writes =>
    rcases step_syn hstep with ⟨h0, h1⟩ | ⟨hr | ⟨i, hi, hclears⟩, hzero⟩ | hdelivered
    · exact absurd hne (not_or.2 ⟨not_not.2 h0, not_not.2 h1⟩)
    · exact .inl ⟨.inl hr, hzero⟩
    · refine .inl ⟨.inr ?_, hzero⟩
      rcases hclears with rfl | rfl | rfl
      · exact .inl hi
      · exact .inr (.inl hi)
      · exact .inr (.inr hi)
    · exact .inr hdelivered
  case reset =>
    obtain ⟨b, -, ⟨-, hn, -⟩ | ⟨hn, -⟩ | ⟨-, -, rfl⟩⟩ := step_moves hstep
    · simp [hr] at hn
    · simp [hr] at hn
    · exact ⟨rfl, rfl⟩
  case accepted =>
    simp only [List.mem_cons, List.not_mem_nil, or_false] at hi
    rcases hi with rfl | rfl
    · exact exec_synCleared (.inr (.inl rfl)) (if_pos hidle)
    · exact exec_synCleared (.inr (.inr rfl)) (if_pos hidle)

/-! ## A silent frame (45_filterbank.md R590 F2) -/

theorem silentChan_of_lines {x : ChanIn} (h0 : ∀ v ∈ x.g0.lines.toList, v = 0) (h1 : ∀ v ∈ x.g1.lines.toList, v = 0) :
    silentChan x = true := by
  simp only [silentChan, silentLines, Bool.and_eq_true, List.all_eq_true, decide_eq_true_eq]
  exact ⟨h0, h1⟩

/-- A silent channel from the zero history (45_filterbank.md R590 F2). -/
theorem fxOneChannel_silent (c : Nat) (h : Header) (mainDataBegin : Nat) {x : ChanIn} (hx : silentChan x = true) :
    fxOneChannel c h mainDataBegin x zeroSyn = silentOut zeroSyn :=
  if_pos (by rw [hx, silentSyn_zero]; rfl)

/-- A silent frame from zero histories, in every mode (45_filterbank.md R590 F2). -/
theorem fxFrame_silent {f : FrameIn} (h0 : silentChan f.ch0 = true) (h1 : silentChan f.ch1 = true) :
    fxFrame f zeroSyn zeroSyn = (silentOut zeroSyn, silentOut zeroSyn) := by
  have hboth : fxBothChannels f zeroSyn zeroSyn = (silentOut zeroSyn, silentOut zeroSyn) :=
    if_pos (by rw [h0, h1, silentSyn_zero]; rfl)
  unfold fxFrame
  rw [fxOneChannel_silent 0 _ _ h0, fxOneChannel_silent 1 _ _ h1, hboth]
  split_ifs <;> rfl

/-- Silent samples are converted to PCM 0 in every layout (46_pcm_output.md R600, R607). -/
theorem pcmEntry_deliver_silent {s : State} {H : Word} {f : FrameIn} (r : List Byte) {y0 y1 : SynChan}
    (hfx : fxFrame f s.syn0 s.syn1 = (silentOut y0, silentOut y1)) {k : Nat}
    (hk : k < (deliver H f r s).pcmLength.toNat * (deliver H f r s).pcmChannels.toNat) :
    pcmEntry (deliver H f r s) k = 0 := by
  have hsilent (nch c n : Nat) : (outputChannel nch (silentOut y0, silentOut y1) c).toList.getD n 0 = 0 := by
    simp only [outputChannel, silentOut, ite_self, Vector.toList_replicate, List.getD_eq_getElem?_getD,
      List.getElem?_getD_replicate_default_eq]
  rw [pcmEntry_valid rfl hk, deliver_pcmMem, hfx]
  rw [deliver_validRange] at hk
  rw [interleave_getD_valid _ _ (pcmChannelCount_le_two _ _) hk, hsilent]
  decide

/-- Settles O57: FX gives silence for a silent frame from zero histories, and the delivery converts it. -/
theorem silentFrameGivesSilence : Obligations.SilentFrameGivesSilence := by
  intro s H f h t hdec hs hd hlines h0 h1
  have hfx : fxFrame f (tick s).syn0 (tick s).syn1 = (silentOut zeroSyn, silentOut zeroSyn) := by
    rw [show (tick s).syn0 = zeroSyn from h0, show (tick s).syn1 = zeroSyn from h1]
    exact fxFrame_silent (silentChan_of_lines (hlines 0 0) (hlines 1 0)) (silentChan_of_lines (hlines 0 1) (hlines 1 1))
  have ht : t = deliver H f _ (tick s) := (engineStep_decoding hdec).trans (iteration_deliver (s := tick s) hs hd)
  rw [ht, deliver_syn0, deliver_syn1]
  exact ⟨by rw [hfx]; rfl, by rw [hfx]; rfl, fun k hk => pcmEntry_deliver_silent _ hfx hk⟩

end Sys2Proof.Machine
end

section
/-! PROOF. The reference filterbank's sums, and zeros mapped to zeros (O58). -/

namespace Sys2Proof.Machine

/-! ## Zeros (45_filterbank.md R585) -/

section
variable {R : Type} [CommRing R] (C : Coefs R) (freq : Nat) (g : GranuleInfo)

theorem granuleLines_zero : granuleLines C freq g (fun _ => 0) = fun _ => 0 := by
  funext n
  simp [granuleLines, reorder, aliasReduce]

theorem subbandBlock_zero (sb n : Nat) : subbandBlock C g (fun _ => 0) sb n = 0 := by
  simp [subbandBlock, shortImdct, shortImdctWindow, longImdct]

theorem subbandSample_zero : subbandSample C g RefSyn.zero (fun _ => 0) = fun _ _ => 0 := by
  funext sb i
  simp [subbandSample, subbandBlock_zero, RefSyn.zero]

theorem polyHistory_zero (t : Nat) : polyHistory C (fun _ _ => 0) (fun _ => 0) t = fun _ => 0 := by
  induction t with
  | zero => rfl
  | succ t ih =>
    funext i
    simp [polyHistory, polyShift, ih]

/-- A granule of zeros leaves the zero history (45_filterbank.md R557, R560). -/
theorem granuleSyn_zero : granuleSyn C freq g (fun _ => 0) RefSyn.zero = RefSyn.zero := by
  simp only [granuleSyn, granuleLines_zero, subbandBlock_zero, subbandSample_zero]
  exact congrArg (RefSyn.mk _) (polyHistory_zero C 18)

/-- A granule of zeros from the zero history synthesizes zeros (45_filterbank.md R560). -/
theorem granulePcm_zero (n : Nat) : granulePcm C freq g (fun _ => 0) RefSyn.zero n = 0 := by
  have hhistory : polyHistory C (fun _ _ => 0) RefSyn.zero.v (n / 32 + 1) = fun _ => 0 := polyHistory_zero C _
  simp [granulePcm, granuleLines_zero, subbandSample_zero, hhistory, polyOut, polyU]

variable {f : FrameIn} {ch : Nat} (hzero : ∀ gr n, frameSpectrum C f gr ch n = 0)
include hzero

theorem frameSynMid_zero : frameSynMid C f ch RefSyn.zero = RefSyn.zero := by
  rw [frameSynMid, funext (hzero 0), granuleSyn_zero]

theorem frameSyn_zero : frameSyn C f ch RefSyn.zero = RefSyn.zero := by
  rw [frameSyn, frameSynMid_zero C hzero, funext (hzero 1), granuleSyn_zero, ite_self]

theorem framePcm_zero (n : Nat) : framePcm C f ch RefSyn.zero n = 0 := by
  rw [framePcm, frameSynMid_zero C hzero, funext (hzero 0), funext (hzero 1), granulePcm_zero, granulePcm_zero,
    ite_self]

end

/-! ## The reorder (45_filterbank.md R551) -/

/-- A line of a long band stays in its place. -/
theorem reorder_long {R : Type} {freq i s : Nat} {g : GranuleInfo} (x : Nat → R)
    (h : linePlace freq g i = .long s) : reorder freq g x i = x i := by
  simp only [reorder, reorderSource, h]

theorem sfbS_mono {freq s t : Nat} (hfreq : freq < 3) (hs : s < 14) (ht : t ≤ s) : sfbS freq t ≤ sfbS freq s := by
  have mono : ∀ freq < 3, ∀ s < 14, ∀ t, t ≤ s → sfbS freq t ≤ sfbS freq s := by decide +kernel
  exact mono freq hfreq s hs t ht

/-- The short band of a line between its bounds. -/
theorem shortBandOf_eq {freq s i : Nat} (hfreq : freq < 3) (hs : s < 13) (hlow : 3 * sfbS freq s ≤ i)
    (hhigh : i < 3 * sfbS freq (s + 1)) : shortBandOf freq i = s := by
  have hfirst : (List.range 13).find? (fun s => i < 3 * sfbS freq (s + 1)) = some s := by
    refine List.find?_range_eq_some.2 ⟨decide_eq_true hhigh, List.mem_range.2 hs, fun t ht => ?_⟩
    have := sfbS_mono hfreq (by omega) (show t + 1 ≤ s from ht)
    simp only [Bool.not_eq_true', decide_eq_false_iff_not]
    omega
  rw [shortBandOf, hfirst, Option.getD_some]

/-- In a short band line `3j + w` takes the value of frequency `j` of window `w`. -/
theorem reorder_short {R : Type} {freq s w j : Nat} {g : GranuleInfo} (x : Nat → R) (hfreq : freq < 3)
    (hb : g.blockType = 2) (hm : g.mixedBlock = true → 3 ≤ s) (hs : s < 13) (hw : w < 3) (hj : j < shortWidth freq s) :
    reorder freq g x (3 * sfbS freq s + 3 * j + w) = x (3 * sfbS freq s + w * shortWidth freq s + j) := by
  have hwidth : shortWidth freq s = sfbS freq (s + 1) - sfbS freq s := rfl
  have hband : shortBandOf freq (3 * sfbS freq s + 3 * j + w) = s :=
    shortBandOf_eq hfreq hs (by omega) (by omega)
  have hplace : ∃ w' j', linePlace freq g (3 * sfbS freq s + 3 * j + w) = .short s w' j' := by
    refine ⟨_, _, (linePlace_short hb ?_).trans (by rw [shortPlace, hband])⟩
    cases hmixed : g.mixedBlock with
    | false => exact .inl rfl
    | true =>
      have hfirst : ∀ freq < 3, sfbS freq 3 = 12 := by decide
      have := sfbS_mono hfreq (by omega) (hm hmixed)
      rw [hfirst freq hfreq] at this
      exact .inr (by omega)
  obtain ⟨w', j', hplace⟩ := hplace
  simp only [reorder, reorderSource, hplace]
  congr 1
  rw [show 3 * sfbS freq s + 3 * j + w - 3 * sfbS freq s = 3 * j + w by omega, show (3 * j + w) % 3 = w by omega,
    show (3 * j + w) / 3 = j by omega]

/-! ## The entries of U (45_filterbank.md R560) -/

theorem polyU_even {R : Type} (v : Nat → R) {i j : Nat} (hj : j < 32) :
    polyU v (j + 32 * (2 * i)) = v (128 * i + j) := by
  have hdiv : (j + 32 * (2 * i)) / 64 = i := by omega
  have hmod : (j + 32 * (2 * i)) % 64 = j := by omega
  rw [polyU, hdiv, hmod, if_pos hj]

theorem polyU_odd {R : Type} (v : Nat → R) {i j : Nat} (hj : j < 32) :
    polyU v (j + 32 * (2 * i + 1)) = v (128 * i + 96 + j) := by
  have hdiv : (j + 32 * (2 * i + 1)) / 64 = i := by omega
  have hmod : (j + 32 * (2 * i + 1)) % 64 = 32 + j := by omega
  rw [polyU, hdiv, hmod, if_neg (by omega), Nat.add_sub_cancel_left]

/-! ## The butterflies of the subband boundaries (45_filterbank.md R552) -/

section
variable {R : Type} [CommRing R] (C : Coefs R) {g : GranuleInfo} (x : Nat → R)

theorem aliasReduce_upper {sb i : Nat} (hsb : 1 ≤ sb) (hlimit : sb ≤ aliasLimit g) (hi : i < 8) :
    aliasReduce C g x (18 * sb + i) = x (18 * sb + i) * C.cs i + x (18 * sb - 1 - i) * C.ca i := by
  have hdiv : (18 * sb + i) / 18 = sb := by omega
  have hmod : (18 * sb + i) % 18 = i := by omega
  simp only [aliasReduce, hdiv, hmod]
  rw [if_pos ⟨hi, hsb, hlimit⟩]

theorem aliasReduce_lower {sb i : Nat} (hsb : 1 ≤ sb) (hlimit : sb ≤ aliasLimit g) (hi : i < 8) :
    aliasReduce C g x (18 * sb - 1 - i) = x (18 * sb - 1 - i) * C.cs i - x (18 * sb + i) * C.ca i := by
  have hdiv : (18 * sb - 1 - i) / 18 = sb - 1 := by omega
  have hmod : (18 * sb - 1 - i) % 18 = 17 - i := by omega
  have hback : 17 - (17 - i) = i := by omega
  simp only [aliasReduce, hdiv, hmod, hback, Nat.sub_add_cancel hsb]
  rw [if_neg (by omega), if_pos ⟨by omega, hlimit⟩]

/-- A line that is in no butterfly is kept. -/
theorem aliasReduce_kept {n : Nat} (h : ∀ sb i, 1 ≤ sb → sb ≤ aliasLimit g → i < 8 →
    n ≠ 18 * sb - 1 - i ∧ n ≠ 18 * sb + i) : aliasReduce C g x n = x n := by
  have hupper : ¬ (n % 18 < 8 ∧ 1 ≤ n / 18 ∧ n / 18 ≤ aliasLimit g) := fun ⟨hk, hsb, hlimit⟩ =>
    (h (n / 18) (n % 18) hsb hlimit hk).2 (by omega)
  have hlower : ¬ (10 ≤ n % 18 ∧ n / 18 + 1 ≤ aliasLimit g) := fun ⟨hk, hlimit⟩ =>
    (h (n / 18 + 1) (17 - n % 18) (by omega) hlimit (by omega)).1 (by omega)
  simp only [aliasReduce]
  rw [if_neg hupper, if_neg hlower]

/-! ## The windowed sums and the polyphase sums (45_filterbank.md R554 to R560) -/

theorem subbandBlock_short {sb : Nat} (hb : g.blockType = 2) (hm : g.mixedBlock = true → 2 ≤ sb) (n : Nat) :
    subbandBlock C g x sb n = ∑ w ∈ Finset.range 3, if 6 + 6 * w ≤ n ∧ n < 18 + 6 * w then
      (∑ k ∈ Finset.range 6, x (18 * sb + 3 * k + w) * C.shortCos (n - (6 + 6 * w)) k) * C.winShort (n - (6 + 6 * w))
    else 0 := by
  have hkind : shortKind g sb = true := by
    cases hmixed : g.mixedBlock with
    | false => simp [shortKind, hb, hmixed]
    | true => simp [shortKind, hb, hm hmixed]
  simp only [subbandBlock, hkind, if_true, shortImdct, shortImdctWindow, Nat.add_assoc]

theorem subbandBlock_long {sb : Nat} (h : ¬ (g.blockType = 2 ∧ (g.mixedBlock = true → 2 ≤ sb))) (n : Nat) :
    subbandBlock C g x sb n = (∑ k ∈ Finset.range 18, x (18 * sb + k) * C.longCos n k) *
      C.win (if g.blockType = 2 then 0 else g.blockType) n := by
  have hkind : shortKind g sb = false := by
    by_contra hne
    simp only [shortKind, Bool.not_eq_false, Bool.and_eq_true, Bool.or_eq_true, decide_eq_true_eq,
      Bool.not_eq_true'] at hne
    exact h ⟨hne.1, fun hm => hne.2.resolve_left (by simp [hm])⟩
  simp only [subbandBlock, hkind, Bool.false_eq_true, if_false, longImdct, windowType]

/-- The 16 windowed values, two from each 128 of the history. -/
theorem polyOut_eq (v : Nat → R) {j : Nat} (hj : j < 32) : polyOut C v j = ∑ i ∈ Finset.range 8,
    (v (128 * i + j) * C.synthD (64 * i + j) + v (128 * i + 96 + j) * C.synthD (64 * i + 32 + j)) := by
  have pairs (a : Nat → R) : ∑ i ∈ Finset.range 16, a i = ∑ i ∈ Finset.range 8, (a (2 * i) + a (2 * i + 1)) := by
    simp only [Finset.sum_range_succ, Finset.sum_range_zero, zero_add, ← add_assoc]
  rw [polyOut, pairs]
  refine Finset.sum_congr rfl fun i _ => ?_
  rw [polyU_even v hj, polyU_odd v hj, show j + 32 * (2 * i) = 64 * i + j by ring,
    show j + 32 * (2 * i + 1) = 64 * i + 32 + j by ring]

end

/-! ## A frame's two granules -/

section
variable {R : Type} [CommRing R] (C : Coefs R) (f : FrameIn) (ch : Nat) (y : RefSyn R)

/-- A granule's lines after reorder and butterflies (45_filterbank.md R551, R552). -/
def frameLines (gr : Nat) : Nat → R :=
  granuleLines C f.header.samplingFrequency.toNat (framePart f gr ch).info (frameSpectrum C f gr ch)

/-- A granule's windowed blocks (45_filterbank.md R554 to R556). -/
def frameBlock (gr sb n : Nat) : R := subbandBlock C (framePart f gr ch).info (frameLines C f ch gr) sb n

/-- The history that a granule starts from. -/
def synBefore (gr : Nat) : RefSyn R := if gr = 0 then y else frameSynMid C f ch y

/-- A granule's subband samples (45_filterbank.md R557, R558). -/
def frameSub (gr : Nat) : Nat → Nat → R :=
  subbandSample C (framePart f gr ch).info (synBefore C f ch y gr) (frameLines C f ch gr)

/-- The polyphase history after `t` time slots of the frame, 18 to a granule (45_filterbank.md R560). -/
def slotHistory (t : Nat) : Nat → R :=
  if t ≤ 18 then polyHistory C (frameSub C f ch y 0) y.v t
  else polyHistory C (frameSub C f ch y 1) (frameSynMid C f ch y).v (t - 18)

theorem slotHistory_granule {gr t : Nat} (hgr : gr < 2) (ht : t ≤ 18) : slotHistory C f ch y (18 * gr + t) =
    polyHistory C (frameSub C f ch y gr) (synBefore C f ch y gr).v t := by
  obtain rfl | rfl : gr = 0 ∨ gr = 1 := by omega
  · rw [slotHistory, if_pos (by omega), Nat.mul_zero, Nat.zero_add]
    rfl
  · cases t with
    | zero => rfl
    | succ t =>
      rw [slotHistory, if_neg (by omega), Nat.mul_one, Nat.add_sub_cancel_left]
      rfl

theorem framePcm_granule {gr n : Nat} (hgr : gr < 2) (hn : n < 576) : framePcm C f ch y (576 * gr + n) =
    polyOut C (polyHistory C (frameSub C f ch y gr) (synBefore C f ch y gr).v (n / 32 + 1)) (n % 32) := by
  obtain rfl | rfl : gr = 0 ∨ gr = 1 := by omega
  · rw [framePcm, if_pos (by omega), Nat.mul_zero, Nat.zero_add]
    rfl
  · rw [framePcm, if_neg (by omega), Nat.mul_one, Nat.add_sub_cancel_left]
    rfl

/-- Overlap-add and frequency inversion, from the history before the frame or granule 0's blocks. -/
theorem frameSub_eq {gr : Nat} (hgr : gr < 2) (sb i : Nat) : frameSub C f ch y gr sb i =
    let v := frameBlock C f ch gr sb i + (if gr = 0 then y.ovl sb i else frameBlock C f ch 0 sb (18 + i))
    if sb % 2 = 1 ∧ i % 2 = 1 then -v else v := by
  obtain rfl | rfl : gr = 0 ∨ gr = 1 := by omega
  · rfl
  · rfl

/-- The PCM of a time slot and the history after it (45_filterbank.md R560). -/
theorem slot_eq {gr t : Nat} (hgr : gr < 2) (ht : t < 18) :
    (∀ i, slotHistory C f ch y (18 * gr + t + 1) i =
      if i < 64 then ∑ k ∈ Finset.range 32, C.polyCos i k * frameSub C f ch y gr k t
      else slotHistory C f ch y (18 * gr + t) (i - 64)) ∧
    ∀ j, j < 32 → framePcm C f ch y (576 * gr + 32 * t + j) =
      polyOut C (slotHistory C f ch y (18 * gr + t + 1)) j := by
  have hafter := slotHistory_granule C f ch y hgr (show t + 1 ≤ 18 from ht)
  rw [← Nat.add_assoc] at hafter
  rw [hafter, slotHistory_granule C f ch y hgr ht.le]
  refine ⟨fun i => rfl, fun j hj => ?_⟩
  rw [Nat.add_assoc, framePcm_granule C f ch y hgr (by omega), show (32 * t + j) / 32 = t by omega,
    show (32 * t + j) % 32 = j by omega]

theorem frameSyn_eq (hch : ch < f.header.nch) :
    frameSyn C f ch y = ⟨fun sb i => frameBlock C f ch 1 sb (18 + i), slotHistory C f ch y 36⟩ := by
  rw [frameSyn, if_neg (by omega)]
  exact congrArg (RefSyn.mk _) (slotHistory_granule C f ch y (by decide : 1 < 2) le_rfl).symm

end

/-- Settles O58: the frame's lines, blocks, samples and histories are those that the rules' sums give, granule by
granule. -/
theorem referenceKeepsZero : Obligations.ReferenceKeepsZero := by
  refine ⟨fun R _ C f ch hzero => ⟨framePcm_zero C hzero, frameSyn_zero C hzero⟩, fun R _ C f ch y hch => if_pos hch,
    fun R _ C f ch y hf hch => ?sums, fun D i k => ?coefficients⟩
  case sums =>
    intro freq width
    have hfreq : freq < 3 := Header.freq_lt_three hf
    refine ⟨fun gr => reorder freq (framePart f gr ch).info (frameSpectrum C f gr ch), frameLines C f ch,
      frameBlock C f ch, frameSub C f ch y, slotHistory C f ch y, fun gr hgr => ?granule,
      fun i _ => ⟨rfl, by rw [frameSyn_eq C f ch y hch]⟩, fun sb i _ _ => by rw [frameSyn_eq C f ch y hch]⟩
    intro g x limit
    refine ⟨fun i hi hlong => ?kept, fun hb s w j hs hw hj hm => reorder_short x hfreq hb hm hs hw hj,
      fun sb i hsb hlimit hi => ⟨aliasReduce_lower C _ hsb hlimit hi, aliasReduce_upper C _ hsb hlimit hi⟩,
      fun n _ h => aliasReduce_kept C _ h, fun sb n _ _ => ?block, fun sb i _ _ => frameSub_eq C f ch y hgr sb i,
      fun t ht => ?slot⟩
    case kept =>
      refine reorder_long x (s := longBandOf freq i) ?_
      by_cases hb : g.blockType = 2
      · exact linePlace_mixed_low hb (hlong hb).1 (hlong hb).2
      · exact linePlace_long hb
    case block =>
      by_cases h : g.blockType = 2 ∧ (g.mixedBlock = true → 2 ≤ sb)
      · exact (subbandBlock_short C _ h.1 h.2 n).trans (if_pos h).symm
      · exact (subbandBlock_long C _ h n).trans (if_neg h).symm
    case slot =>
      obtain ⟨hafter, hpcm⟩ := slot_eq C f ch y hgr ht
      exact ⟨fun i _ => hafter i, fun j hj => (hpcm j hj).trans (polyOut_eq C _ hj)⟩
  case coefficients =>
    exact ⟨fun _ => ⟨rfl, rfl⟩, rfl, rfl, rfl, fun _ => rfl,
      fun _ => by simp [realCoefs, realWindow], rfl⟩

end Sys2Proof.Machine
end

section
/-! PROOF. FX and FX_ideal have the properties of R590, and FX_ideal is within 1/2 of the reference (O56). -/

namespace Sys2Proof.Machine

/-! ## What every FX that acts on the heeded frame ignores (30_encoding.md R211 to R215; 42_side_info_main_data.md R401,
R419; 44_requantize_stereo.md R503) -/

/-- An FX that acts on a frame as the numeric stages heed it. -/
def HeedsOnly {Y : Type} (F : FrameIn → Y → Y → FxOut Y × FxOut Y) : Prop := ∀ f, F (heededFrame f) = F f

theorem HeedsOnly.eq_of_heeded {Y : Type} {F : FrameIn → Y → Y → FxOut Y × FxOut Y} (hF : HeedsOnly F) {f f' : FrameIn}
    (h : heededFrame f' = heededFrame f) (y0 y1 : Y) : F f' y0 y1 = F f y0 y1 := by
  rw [← hF f', h, hF f]

theorem heededFrame_extension {f : FrameIn} (m : BitVec 2) (hm : f.header.mode ≠ 1#2) :
    heededFrame { f with header := { f.header with modeExtension := m } } = heededFrame f := by
  simp only [heededFrame, Header.heeded_extension m hm]

theorem heededFrame_flags {f : FrameIn} {p00 p10 p01 p11 : Part} (h00 : SameButIgnored f.ch0.g0 p00)
    (h10 : SameButIgnored f.ch0.g1 p10) (h01 : SameButIgnored f.ch1.g0 p01) (h11 : SameButIgnored f.ch1.g1 p11) :
    heededFrame { f with ch0 := { f.ch0 with g0 := p00, g1 := p10 }, ch1 := { f.ch1 with g0 := p01, g1 := p11 } } =
      heededFrame f := by
  obtain ⟨h0, -⟩ := heededChan_same f.ch0.scfsi h00 h10
  obtain ⟨h1, -⟩ := heededChan_same f.ch1.scfsi h01 h11
  simp only [heededFrame, h0, h1]

@[simp] theorem heededInfo_heededInfo (g : GranuleInfo) : heededInfo (heededInfo g) = heededInfo g := by
  by_cases hb : g.blockType = 2 <;> simp [heededInfo, hb]

@[simp] theorem heededChan_heededChan (x : ChanIn) : heededChan (heededChan x) = heededChan x := by
  simp [heededChan, heededPart]

/-- A number of 32 bits is one of SYNTH_WIDTH (45_filterbank.md R590 F4). -/
theorem word_toInt_range (v : Word) : -(2 ^ 31) ≤ v.toInt ∧ v.toInt ≤ 2 ^ 31 - 1 :=
  ⟨BitVec.le_toInt v, Int.le_sub_one_of_lt BitVec.toInt_lt⟩

/-- A single-channel frame is not joint stereo (30_encoding.md R214). -/
theorem Header.joint_of_single {h : Header} (hn : h.nch = 1) : h.joint = false := by
  have hmode : h.mode = 3#2 := by
    by_contra hm
    simp [Header.nch, hm] at hn
  simp [Header.joint, hmode]

/-! ## The block's FX (45_filterbank.md R590) -/

theorem fxFrame_heedsOnly : HeedsOnly fxFrame := by
  intro f
  have one (c m : Nat) (x : ChanIn) (y : SynChan) :
      fxOneChannel c f.header.heeded m (heededChan x) y = fxOneChannel c f.header m x y := by
    simp only [fxOneChannel, Header.heeded_heeded, heededChan_heededChan]
    rfl
  have both (y0 y1 : SynChan) : fxBothChannels (heededFrame f) y0 y1 = fxBothChannels f y0 y1 := by
    simp only [fxBothChannels, heededFrame, Header.heeded_heeded, heededChan_heededChan]
    rfl
  funext y0 y1
  simp only [fxFrame, both]
  simp only [heededFrame, one, Header.heeded_nch, Header.heeded_joint]

theorem fxFrame_single {f : FrameIn} (y0 y1 : SynChan) (h : f.header.nch = 1) :
    fxFrame f y0 y1 = (fxOneChannel 0 f.header f.mainDataBegin f.ch0 y0, silentOut y1) := if_pos h

/-- In modes other than joint stereo each channel goes by itself (45_filterbank.md R590 F3). -/
theorem fxFrame_separate {f : FrameIn} (y0 y1 : SynChan) (h : f.header.nch = 2) (hj : f.header.joint = false) :
    fxFrame f y0 y1 = (fxOneChannel 0 f.header f.mainDataBegin f.ch0 y0,
      fxOneChannel 1 f.header f.mainDataBegin f.ch1 y1) := by
  simp [fxFrame, h, hj]

theorem fxFrame_fst {f : FrameIn} (y0 y1 : SynChan) (hj : f.header.joint = false) :
    (fxFrame f y0 y1).1 = fxOneChannel 0 f.header f.mainDataBegin f.ch0 y0 := by
  rcases Header.nch_cases f.header with hn | hn
  · rw [fxFrame_single y0 y1 hn]
  · rw [fxFrame_separate y0 y1 hn hj]

theorem fxFrame_fxProps : FxProps zeroSyn fxFrame where
  zeroOne f y1 hn h0 := by rw [fxFrame_single _ _ hn, fxOneChannel_silent 0 _ _ h0]
  zeroTwo f _ h0 h1 := fxFrame_silent h0 h1
  zeroEach f y hn hj := by
    rw [fxFrame_separate _ _ hn hj, fxFrame_separate _ _ hn hj]
    exact ⟨fxOneChannel_silent 0 _ _, fxOneChannel_silent 1 _ _⟩
  independent f x y y0 y1 hj := by
    refine ⟨?_, fun hn => ?_⟩
    · rw [fxFrame_fst y0 y1 hj]
      exact fxFrame_fst (f := { f with ch1 := x }) y0 y hj
    · rw [fxFrame_separate y0 y1 hn hj]
      exact (congrArg Prod.snd (fxFrame_separate (f := { f with ch0 := x }) y y1 hn hj) :)
  range f y0 y1 v _ := word_toInt_range v
  untouched f y0 y1 hn := fxFrame_syn1_single y0 y1 hn
  ignoredFields f y0 y1 p c o e := fxFrame_heedsOnly.eq_of_heeded rfl y0 y1
  ignoredExtension f y0 y1 m hm := fxFrame_heedsOnly.eq_of_heeded (heededFrame_extension m hm) y0 y1
  ignoredSelection f y0 y1 a b := fxFrame_heedsOnly.eq_of_heeded rfl y0 y1
  ignoredFlags f y0 y1 _ _ _ _ h00 h10 h01 h11 :=
    fxFrame_heedsOnly.eq_of_heeded (heededFrame_flags h00 h10 h01 h11) y0 y1

/-! ## What the reference's stages heed of the side information -/

section
variable (freq : Nat) (g : GranuleInfo) (p : Part)

@[simp] theorem heededInfo_blockType : (heededInfo g).blockType = g.blockType := rfl

/-- mixed_block_flag is heeded with block_type 2 (42_side_info_main_data.md R419). -/
theorem heededInfo_mixedBlock (hb : g.blockType = 2) : (heededInfo g).mixedBlock = g.mixedBlock := by
  simp [heededInfo, hb]

@[simp] theorem linePlace_heeded (i : Nat) : linePlace freq (heededInfo g) i = linePlace freq g i := by
  by_cases hb : g.blockType = 2 <;> simp [linePlace, hb, heededInfo_mixedBlock]

@[simp] theorem aliasLimit_heeded : aliasLimit (heededInfo g) = aliasLimit g := by
  by_cases hb : g.blockType = 2 <;> simp [aliasLimit, hb, heededInfo_mixedBlock]

@[simp] theorem shortKind_heeded (sb : Nat) : shortKind (heededInfo g) sb = shortKind g sb := by
  by_cases hb : g.blockType = 2 <;> simp [shortKind, hb, heededInfo_mixedBlock]

@[simp] theorem windowType_heeded : windowType (heededInfo g) = windowType g := rfl

variable {freq g} in
/-- preflag acts on the lines of long bands, which only a granule that is not all short has (44_requantize_stereo.md
R503). -/
theorem heededInfo_preflag {i s : Nat} (h : linePlace freq g i = .long s) : (heededInfo g).preflag = g.preflag := by
  have hlong : ¬ (g.blockType = 2 ∧ g.mixedBlock = false) := fun ⟨hb, hm⟩ => by
    rw [linePlace_short hb (.inl hm)] at h
    exact LinePlace.noConfusion h
  have hflag : (decide (g.blockType = 2) && !g.mixedBlock) = false := by simpa using hlong
  simp only [heededInfo, hflag, Bool.not_false, Bool.and_true]

@[simp] theorem gainQuarters_heeded (f : Scalefac) (i : Nat) :
    gainQuarters (heededInfo g) f (linePlace freq g i) = gainQuarters g f (linePlace freq g i) := by
  cases h : linePlace freq g i with
  | long s =>
    simp only [gainQuarters, heededInfo_preflag h]
    rfl
  | short s w j => rfl

@[simp] theorem windowExtent_heeded (w : Nat) : windowExtent freq (heededPart p) w = windowExtent freq p w := by
  refine eq_of_forall_ge_iff fun n => ?_
  rw [windowExtent_le_iff, windowExtent_le_iff]
  simp only [heededPart, linePlace_heeded]

@[simp] theorem intensityLine_heeded (i : Nat) : intensityLine freq (heededPart p) i = intensityLine freq p i := by
  cases h : linePlace freq p.info i with
  | long s =>
    rw [intensityLine_long h, intensityLine_long (p := heededPart p) ((linePlace_heeded ..).trans h)]
    rfl
  | short s w j =>
    have hb : p.info.blockType = 2 := by
      by_contra hb
      rw [linePlace_long hb] at h
      exact LinePlace.noConfusion h
    have hbound : shortBoundBand freq (heededPart p) w = shortBoundBand freq p w := by
      simp only [shortBoundBand, windowExtent_heeded]
      simp only [heededPart, heededInfo_mixedBlock _ hb]
    rw [intensityLine_short h, intensityLine_short (p := heededPart p) ((linePlace_heeded ..).trans h), hbound]
    rfl

end

section
variable {R : Type} [CommRing R] (C : Coefs R) (freq : Nat) (g : GranuleInfo) (x : Nat → R)

@[simp] theorem requantize_heeded (p : Part) (i : Nat) :
    requantize C freq (heededPart p) i = requantize C freq p i := by
  simp only [requantize, heededPart, linePlace_heeded, gainQuarters_heeded]

@[simp] theorem spectrum_heeded (h : Header) (p0 p1 : Part) (ch i : Nat) :
    spectrum C h.heeded (heededPart p0) (heededPart p1) ch i = spectrum C h p0 p1 ch i := by
  obtain ⟨hms, hint⟩ := Header.heeded_tools h
  have hfreq : h.heeded.samplingFrequency = h.samplingFrequency := rfl
  simp only [spectrum, stereoLine, requantize_heeded, intensityLine_heeded, Header.heeded_nch, hms, hint, hfreq]

@[simp] theorem granuleLines_heeded : granuleLines C freq (heededInfo g) x = granuleLines C freq g x := by
  funext n
  simp only [granuleLines, aliasReduce, reorder, reorderSource, aliasLimit_heeded, linePlace_heeded]

@[simp] theorem subbandBlock_heeded (sb n : Nat) : subbandBlock C (heededInfo g) x sb n = subbandBlock C g x sb n := by
  simp only [subbandBlock, shortKind_heeded, windowType_heeded]

@[simp] theorem subbandSample_heeded (y : RefSyn R) : subbandSample C (heededInfo g) y x = subbandSample C g y x := by
  funext sb i
  simp only [subbandSample, subbandBlock_heeded]

theorem granuleSyn_heeded (y : RefSyn R) : granuleSyn C freq (heededInfo g) x y = granuleSyn C freq g x y := by
  simp only [granuleSyn, granuleLines_heeded, subbandBlock_heeded, subbandSample_heeded]

theorem granulePcm_heeded (y : RefSyn R) : granulePcm C freq (heededInfo g) x y = granulePcm C freq g x y := by
  funext n
  simp only [granulePcm, granuleLines_heeded, subbandSample_heeded]

end

/-! ## What FX_ideal makes of a channel depends on -/

section
variable {D : Nat → ℝ} {f f' : FrameIn} {ch : Nat}

/-- A channel's samples and history depend on its spectrum, the heeded side information, the sampling frequency and the
number of channels. -/
theorem idealChannel_congr (hfreq : f'.header.samplingFrequency = f.header.samplingFrequency)
    (hnch : f'.header.nch = f.header.nch)
    (hinfo : ∀ gr, heededInfo (framePart f' gr ch).info = heededInfo (framePart f gr ch).info)
    (hspectrum : ∀ gr, frameSpectrum (realCoefs D) f' gr ch = frameSpectrum (realCoefs D) f gr ch) (y : RefSyn ℝ) :
    idealChannel D f' ch y = idealChannel D f ch y := by
  have hsyn (gr : Nat) (z : RefSyn ℝ) (freq : Nat) (x : Nat → ℝ) :
      granuleSyn (realCoefs D) freq (framePart f' gr ch).info x z =
        granuleSyn (realCoefs D) freq (framePart f gr ch).info x z := by
    rw [← granuleSyn_heeded, hinfo, granuleSyn_heeded]
  have hpcm (gr : Nat) (z : RefSyn ℝ) (freq : Nat) (x : Nat → ℝ) :
      granulePcm (realCoefs D) freq (framePart f' gr ch).info x z =
        granulePcm (realCoefs D) freq (framePart f gr ch).info x z := by
    rw [← granulePcm_heeded, hinfo, granulePcm_heeded]
  simp only [idealChannel, framePcm, frameSyn, frameSynMid, hfreq, hnch, hspectrum, hsyn, hpcm]

theorem framePart_heeded (f : FrameIn) (gr ch : Nat) :
    framePart (heededFrame f) gr ch = heededPart (framePart f gr ch) := by
  unfold framePart
  split_ifs <;> rfl

theorem fxIdeal_heedsOnly (D : Nat → ℝ) : HeedsOnly (fxIdeal D) := by
  intro f
  have channel (ch : Nat) (y : RefSyn ℝ) : idealChannel D (heededFrame f) ch y = idealChannel D f ch y := by
    refine idealChannel_congr (f := f) (f' := heededFrame f) rfl rfl (fun gr => ?_) (fun gr => funext fun i => ?_) y
    · rw [framePart_heeded]
      exact heededInfo_heededInfo _
    · simp only [frameSpectrum, framePart_heeded]
      exact spectrum_heeded ..
  funext y0 y1
  have hnch : (heededFrame f).header.nch = f.header.nch := rfl
  rw [fxIdeal, fxIdeal, channel, channel, hnch]

/-! ## The spectrum outside joint stereo, and of silent channels -/

/-- Outside joint stereo a channel's spectrum is its own requantised values (44_requantize_stereo.md R524). -/
theorem frameSpectrum_separate (D : Nat → ℝ) (hj : f.header.joint = false) (gr : Nat) (hch : ch < f.header.nch) :
    frameSpectrum (realCoefs D) f gr ch =
      requantize (realCoefs D) f.header.samplingFrequency.toNat (framePart f gr ch) := by
  funext i
  obtain ⟨hms, hint⟩ := Header.stereo_off (.inl hj)
  rcases Header.nch_cases f.header with hn | hn
  · obtain rfl : ch = 0 := by omega
    exact if_pos hn
  · obtain ⟨h0, h1⟩ := spectrum_pair (D := D) (p0 := framePart f gr 0) (i := i) hn
      (stereoLine_kept (p1 := framePart f gr 1) (by simp [hint]) hms)
    obtain rfl | rfl : ch = 0 ∨ ch = 1 := by omega
    · exact h0
    · exact h1

theorem requantize_silent (D : Nat → ℝ) (freq : Nat) {p : Part} (hp : silentLines p.lines = true) (i : Nat) :
    requantize (realCoefs D) freq p i = 0 := by
  have hline : p.lines.toList.getD i 0 = 0 := by
    simp only [silentLines, List.all_eq_true, decide_eq_true_eq] at hp
    exact getD_of_forall (P := (· = 0)) hp rfl i
  rw [requantize, hline]
  simp [realCoefs]

theorem framePart_silent (h : silentChan (if ch = 0 then f.ch0 else f.ch1) = true) (gr : Nat) :
    silentLines (framePart f gr ch).lines = true := by
  simp only [silentChan, Bool.and_eq_true] at h
  simp only [framePart]
  generalize (if ch = 0 then f.ch0 else f.ch1) = x at h ⊢
  split_ifs
  · exact h.1
  · exact h.2

theorem frameSpectrum_silent_separate (D : Nat → ℝ) (hj : f.header.joint = false) (hch : ch < f.header.nch)
    (h : silentChan (if ch = 0 then f.ch0 else f.ch1) = true) (gr n : Nat) :
    frameSpectrum (realCoefs D) f gr ch n = 0 := by
  rw [frameSpectrum_separate D hj gr hch]
  exact requantize_silent D _ (framePart_silent h gr) n

/-- Joint stereo makes zeros of zeros (44_requantize_stereo.md R520, R523). -/
theorem frameSpectrum_silent (D : Nat → ℝ) (h0 : silentChan f.ch0 = true) (h1 : silentChan f.ch1 = true)
    (gr ch n : Nat) : frameSpectrum (realCoefs D) f gr ch n = 0 := by
  have x0 := requantize_silent D f.header.samplingFrequency.toNat (framePart_silent (ch := 0) h0 gr) n
  have x1 := requantize_silent D f.header.samplingFrequency.toNat (framePart_silent (ch := 1) h1 gr) n
  have hpair (i : Nat) : stereoLine (realCoefs D) f.header (framePart f gr 1) 0 0 i = (0, 0) := by
    unfold stereoLine
    split
    · simp
    · simp
  simp only [frameSpectrum, spectrum, x0, x1, hpair, ite_self]

/-! ## FX_ideal (45_filterbank.md R590) -/

theorem idealSample_zero : idealSample 0 = 0 := by
  have hfloor : ⌊(1 / 2 : ℝ)⌋ = 0 := by norm_num
  rw [idealSample, mul_zero, zero_add, hfloor]
  rfl

/-- A silent channel from the zero history (45_filterbank.md R585, R590 F2). -/
theorem idealChannel_silent (h : ∀ gr n, frameSpectrum (realCoefs D) f gr ch n = 0) :
    idealChannel D f ch RefSyn.zero = silentOut RefSyn.zero := by
  simp only [idealChannel, framePcm_zero _ h, frameSyn_zero _ h, idealSample_zero]
  exact congrArg (FxOut.mk · RefSyn.zero) (Vector.ext fun i hi => by simp)

theorem idealChannel_separate (hheader : f'.header = f.header) (hj : f.header.joint = false)
    (hch : ch < f.header.nch) (hpart : ∀ gr, framePart f' gr ch = framePart f gr ch) (y : RefSyn ℝ) :
    idealChannel D f' ch y = idealChannel D f ch y := by
  refine idealChannel_congr (by rw [hheader]) (by rw [hheader]) (fun gr => by rw [hpart]) (fun gr => ?_) y
  rw [frameSpectrum_separate D hj gr hch, frameSpectrum_separate D (hheader ▸ hj) gr (hheader ▸ hch), hpart, hheader]

theorem fxIdeal_snd (D : Nat → ℝ) (y0 y1 : RefSyn ℝ) (hn : f.header.nch = 2) :
    (fxIdeal D f y0 y1).2 = idealChannel D f 1 y1 := if_neg (by omega)

theorem fxIdeal_fxProps (D : Nat → ℝ) : FxProps RefSyn.zero (fxIdeal D) where
  zeroOne f y1 hn h0 := idealChannel_silent
    (frameSpectrum_silent_separate (ch := 0) D (Header.joint_of_single hn) (by omega) h0)
  zeroTwo f hn h0 h1 := Prod.ext (idealChannel_silent fun gr n => frameSpectrum_silent D h0 h1 gr 0 n)
    ((fxIdeal_snd D _ _ hn).trans (idealChannel_silent fun gr n => frameSpectrum_silent D h0 h1 gr 1 n))
  zeroEach f y hn hj :=
    ⟨fun h0 => idealChannel_silent (frameSpectrum_silent_separate (ch := 0) D hj (by omega) h0),
      fun h1 => (fxIdeal_snd D _ _ hn).trans
        (idealChannel_silent (frameSpectrum_silent_separate (ch := 1) D hj (by omega) h1))⟩
  independent f x y y0 y1 hj := by
    have hnch := Header.nch_cases f.header
    refine ⟨?_, fun hn => ?_⟩
    · exact idealChannel_separate (f := f) (f' := { f with ch1 := x }) rfl hj (by omega) (fun _ => rfl) y0
    · rw [fxIdeal_snd D y0 y1 hn, fxIdeal_snd (f := { f with ch0 := x }) D y y1 hn]
      exact idealChannel_separate (f := f) (f' := { f with ch0 := x }) rfl hj (by omega) (fun _ => rfl) y1
  range f y0 y1 v _ := word_toInt_range v
  untouched f y0 y1 hn := by
    rw [fxIdeal, if_pos hn]
    rfl
  ignoredFields f y0 y1 p c o e := (fxIdeal_heedsOnly D).eq_of_heeded rfl y0 y1
  ignoredExtension f y0 y1 m hm := (fxIdeal_heedsOnly D).eq_of_heeded (heededFrame_extension m hm) y0 y1
  ignoredSelection f y0 y1 a b := (fxIdeal_heedsOnly D).eq_of_heeded rfl y0 y1
  ignoredFlags f y0 y1 _ _ _ _ h00 h10 h01 h11 :=
    (fxIdeal_heedsOnly D).eq_of_heeded (heededFrame_flags h00 h10 h01 h11) y0 y1

/-! ## The accuracy of FX_ideal (45_filterbank.md R590) -/

theorem idealSample_range (x : ℝ) : -(2 ^ 31) ≤ idealSample x ∧ idealSample x ≤ 2 ^ 31 - 1 := by
  unfold idealSample clampInt
  split_ifs <;> omega

/-- A value in the range of a sample is rounded to the nearest integer. -/
theorem idealSample_near {x : ℝ} (hlow : -(2 ^ 31) ≤ (2 : ℝ) ^ Config.fracBits * x)
    (hhigh : (2 : ℝ) ^ Config.fracBits * x ≤ 2 ^ 31 - 1) :
    |(idealSample x : ℝ) - (2 : ℝ) ^ Config.fracBits * x| ≤ 1 / 2 := by
  generalize hv : (2 : ℝ) ^ Config.fracBits * x = v at hlow hhigh ⊢
  have floorLow : -(2 ^ 31) ≤ ⌊v + 1 / 2⌋ := Int.le_floor.2 (by push_cast; linarith)
  have floorHigh : ⌊v + 1 / 2⌋ ≤ 2 ^ 31 - 1 := Int.floor_le_iff.2 (by push_cast; linarith)
  have hsample : idealSample x = ⌊v + 1 / 2⌋ := by
    rw [idealSample, hv, clampInt, if_neg (by omega), if_neg (by omega)]
  have hle := Int.floor_le (v + 1 / 2)
  have hlt := Int.lt_floor_add_one (v + 1 / 2)
  rw [hsample, abs_le]
  constructor <;> linarith

/-- A sample of FX_ideal as a number. -/
theorem idealChannel_sample (D : Nat → ℝ) (f : FrameIn) (ch : Nat) (y : RefSyn ℝ) {n : Nat} (hn : n < 1152) :
    ((idealChannel D f ch y).samples.toList.getD n 0).toInt = idealSample (framePcm (realCoefs D) f ch y n) := by
  have hget : (idealChannel D f ch y).samples.toList.getD n 0 =
      BitVec.ofInt 32 (idealSample (framePcm (realCoefs D) f ch y n)) := by
    simp [idealChannel, hn]
  obtain ⟨hlow, hhigh⟩ := idealSample_range (framePcm (realCoefs D) f ch y n)
  rw [hget]
  exact BitVec.toInt_ofInt_eq_self (by decide) (by norm_num; omega) (by norm_num; omega)

theorem fxSample_ideal (D : Nat → ℝ) (fs : List FrameIn) {n : Nat} (hch : ch < f.header.nch) (hn : n < 1152) :
    fxSample RefSyn.zero (fxIdeal D) fs f ch n =
      idealSample (framePcm (realCoefs D) f ch (refSynAfter D ch fs) n) := by
  rw [fxSample, fxSynAfter_ideal, ← idealChannel_sample D f ch _ hn]
  have hnch := Header.nch_cases f.header
  obtain rfl | rfl : ch = 0 ∨ ch = 1 := by omega
  · rfl
  · simp only [one_ne_zero, if_false, fxIdeal_snd D _ _ (show f.header.nch = 2 by omega)]

theorem fxIdeal_withinRange (D : Nat → ℝ) : FxWithinRange RefSyn.zero (fxIdeal D) D (1 / 2) := by
  intro fs f ch n _ hch hn hlow hhigh
  rw [fxSample_ideal D fs hch hn]
  exact idealSample_near hlow hhigh

end

/-- Settles O56: both act on the heeded frame alone, the block's FX channel by channel where the spec says so, and
FX_ideal keeps zeros and rounds to the nearest integer. -/
theorem fxProperties : Obligations.FxProperties :=
  ⟨fxFrame_fxProps, fun D => ⟨fxIdeal_fxProps D, fxIdeal_withinRange D⟩⟩

end Sys2Proof.Machine
end

section
/-! PROOF. The PCM value of a sample (O49), and what the host reads of a delivered frame (O50). -/

namespace Sys2Proof.Machine

/-! ## The PCM value of a sample (46_pcm_output.md R600) -/

/-- The shift by F - 15 is a division by 8192, and half an LSB is 4096, as F is 28. -/
theorem pcmValue_eq (s : Int) : pcmValue s = clampInt ((s + 4096) / 8192) (-32768) 32767 := rfl

theorem pcmValue_range (s : Int) : -32768 ≤ pcmValue s ∧ pcmValue s ≤ 32767 := by
  rw [pcmValue_eq, clampInt]
  split_ifs <;> omega

/-- The saturated value fits an entry, so storing it in 16 bits loses nothing. -/
theorem pcmOfSample_toInt (s : Word) : (pcmOfSample s).toInt = pcmValue s.toInt := by
  obtain ⟨hlow, hhigh⟩ := pcmValue_range s.toInt
  exact BitVec.toInt_ofInt_eq_self (by decide) (by norm_num; omega) (by norm_num; omega)

/-- Settles O49: the saturated value is stored exactly. -/
theorem pcmConversion : Obligations.PcmConversion := by
  intro s
  rw [pcmOfSample_toInt, pcmValue_eq]
  rfl

/-! ## The layout of a delivered frame (46_pcm_output.md R606, R607) -/

theorem pcmChannelCount_single : pcmChannelCount 1 false = 1 := rfl

theorem pcmChannelCount_doubled : pcmChannelCount 1 true = 2 := rfl

theorem pcmChannelCount_two (force : Bool) : pcmChannelCount 2 force = 2 := rfl

theorem outputChannel_single (out : FxOut SynChan × FxOut SynChan) (c : Nat) : outputChannel 1 out c = out.1.samples :=
  if_pos (.inl rfl)

theorem outputChannel_zero (nch : Nat) (out : FxOut SynChan × FxOut SynChan) :
    outputChannel nch out 0 = out.1.samples :=
  if_pos (.inr rfl)

theorem outputChannel_two_one (out : FxOut SynChan × FxOut SynChan) : outputChannel 2 out 1 = out.2.samples := rfl

/-- A delivery leaves the stored entries above its valid range (assumption log 3). -/
theorem interleave_getD_kept {nch chans k : Nat} (out : FxOut SynChan × FxOut SynChan) (old : Vector Pcm 2304)
    (habove : chans * 1152 ≤ k) (hk : k < 2304) :
    (interleave nch chans out old).toList.getD k 0 = old.toList.getD k 0 := by
  rw [interleave, tabulate_getD _ _ _ _ hk, if_neg (by omega)]

section
variable {H : Word} {f : FrameIn} {s : State} {chans c n : Nat} (r : List Byte)

/-- After a delivery to `chans` output channels, entry `chans * n + c` reads sample `n` of output channel `c`. -/
theorem pcmEntry_deliver (hchans : pcmChannelCount (headerOfWord H).nch (forceStereo s) = chans) (hc : c < chans)
    (hn : n < 1152) : pcmEntry (deliver H f r s) (chans * n + c) =
      pcmOfSample ((outputChannel (headerOfWord H).nch (fxFrame f s.syn0 s.syn1) c).toList.getD n 0) := by
  have htwo : chans ≤ 2 := hchans ▸ pcmChannelCount_le_two _ _
  have hk : chans * n + c < chans * 1152 := by
    calc chans * n + c < chans * (n + 1) := by rw [Nat.mul_succ]; omega
      _ ≤ chans * 1152 := Nat.mul_le_mul_left _ hn
  have hvalid := deliver_validRange H f r s
  rw [hchans] at hvalid
  rw [pcmEntry_valid rfl (hvalid ▸ hk), deliver_pcmMem, hchans, interleave_getD_valid _ _ htwo hk, Nat.mul_add_mod,
    Nat.mod_eq_of_lt hc, Nat.mul_add_div (Nat.zero_lt_of_lt hc), Nat.div_eq_of_lt hc, Nat.add_zero]

theorem pcmEntry_deliver_alone (hchans : pcmChannelCount (headerOfWord H).nch (forceStereo s) = 1) (hn : n < 1152) :
    pcmEntry (deliver H f r s) n = pcmOfSample ((fxFrame f s.syn0 s.syn1).1.samples.toList.getD n 0) := by
  have h := pcmEntry_deliver (f := f) r hchans Nat.one_pos hn
  rwa [Nat.one_mul, outputChannel_zero] at h

theorem pcmEntry_deliver_even (hchans : pcmChannelCount (headerOfWord H).nch (forceStereo s) = 2) (hn : n < 1152) :
    pcmEntry (deliver H f r s) (2 * n) = pcmOfSample ((fxFrame f s.syn0 s.syn1).1.samples.toList.getD n 0) := by
  have h := pcmEntry_deliver (f := f) r hchans Nat.two_pos hn
  rwa [outputChannel_zero] at h

theorem pcmEntry_deliver_odd (hchans : pcmChannelCount (headerOfWord H).nch (forceStereo s) = 2) (hn : n < 1152) :
    pcmEntry (deliver H f r s) (2 * n + 1) =
      pcmOfSample ((outputChannel (headerOfWord H).nch (fxFrame f s.syn0 s.syn1) 1).toList.getD n 0) :=
  pcmEntry_deliver r hchans Nat.one_lt_two hn

end

/-- Settles O50: the number of output channels and the source of the second one decide the layout. -/
theorem deliveredPcmLayout : Obligations.DeliveredPcmLayout := by
  intro s H f h out t first second hdec hs hd
  obtain ⟨r, ht⟩ : ∃ r, t = deliver H f r (tick s) :=
    ⟨_, (engineStep_decoding hdec).trans (iteration_deliver (s := tick s) hs hd)⟩
  rw [ht, deliver_pcmChannels]
  refine ⟨fun hone hforce => ?single, fun hone hforce => ?doubled, fun htwo => ?pair⟩
  case single =>
    have hchans : pcmChannelCount h.nch (forceStereo (tick s)) = 1 :=
      (congrArg₂ pcmChannelCount hone hforce).trans pcmChannelCount_single
    refine ⟨by rw [hchans]; rfl, fun n hn => pcmEntry_deliver_alone r hchans hn, fun k habove hk => ?_⟩
    rw [deliver_pcmMem, hchans]
    exact interleave_getD_kept _ _ habove hk
  case doubled =>
    have hchans : pcmChannelCount h.nch (forceStereo (tick s)) = 2 :=
      (congrArg₂ pcmChannelCount hone hforce).trans pcmChannelCount_doubled
    refine ⟨by rw [hchans]; rfl, fun n hn => ⟨pcmEntry_deliver_even r hchans hn, ?_⟩⟩
    rw [pcmEntry_deliver_odd r hchans hn, hone, outputChannel_single]
    rfl
  case pair =>
    have hchans : pcmChannelCount h.nch (forceStereo (tick s)) = 2 :=
      (congrArg (pcmChannelCount · _) htwo).trans (pcmChannelCount_two _)
    refine ⟨by rw [hchans]; rfl, fun n hn => ⟨pcmEntry_deliver_even r hchans hn, ?_⟩⟩
    rw [pcmEntry_deliver_odd r hchans hn, htwo, outputChannel_two_one]
    rfl

end Sys2Proof.Machine
end

section
/-! PROOF. What each command answers, the commands' frame, and where SESSION changes (O18 to O27, O43, O47). -/

namespace Sys2Proof.Machine

/-! ## Accepted and rejected commands (47_session_commands.md R681, R682) -/

theorem exec_accepted {i : Instr} {s : State} (h : rejection i s.engine s.session = none) :
    exec i s = .next (effectOf i s) := (exec_eq_issue i s).trans (congrArg _ (issue_accepted h))

theorem exec_rejected {i : Instr} {s : State} {e : HostErr} (h : rejection i s.engine s.session = some e) :
    exec i s = .next { s with err := e } := (exec_eq_issue i s).trans (congrArg _ (issue_rejected h))

/-- The commands that R682 accepts in IDLE, whatever SESSION is. -/
theorem exec_idle {i : Instr} {s : State} (hi : i ∈ [Instr.nop, .openFile, .close]) (h : s.engine = .idle) :
    exec i s = .next (effectOf i s) := by
  refine exec_accepted ?_
  simp only [List.mem_cons, List.not_mem_nil, or_false] at hi
  rcases hi with rfl | rfl | rfl <;> exact if_pos h

theorem exec_not_idle {i : Instr} {s : State} (hi : i ∈ [Instr.nop, .openFile, .pull, .close])
    (h : s.engine ≠ .idle) : exec i s = .next { s with err := .busy } := by
  refine exec_rejected ?_
  simp only [List.mem_cons, List.not_mem_nil, or_false] at hi
  rcases hi with rfl | rfl | rfl | rfl <;> exact if_neg h

theorem exec_pull_idle {s : State} (h : s.engine = .idle) (hs : s.session ≠ .uninitialized) :
    exec .pull s = .next (pullEffect s) := exec_accepted ((if_pos h).trans (if_neg hs))

theorem exec_pull_uninitialized {s : State} (h : s.engine = .idle) (hs : s.session = .uninitialized) :
    exec .pull s = .next { s with err := .noSession } := exec_rejected ((if_pos h).trans (if_pos hs))

theorem exec_refillDone_needData {s : State} (h : s.engine = .needData) :
    exec .refillDone s = .next (refillEffect false s) := exec_accepted (if_pos h)

theorem exec_refillDoneErr_needData {s : State} (h : s.engine = .needData) :
    exec .refillDoneErr s = .next (refillEffect true s) := exec_accepted (if_pos h)

theorem exec_not_needData {i : Instr} {s : State} (hi : i ∈ [Instr.refillDone, .refillDoneErr])
    (h : s.engine ≠ .needData) : exec i s = .next { s with err := .protocol } := by
  refine exec_rejected ?_
  simp only [List.mem_cons, List.not_mem_nil, or_false] at hi
  rcases hi with rfl | rfl <;> exact if_neg h

/-- A command writes ERR alone where it is rejected, and has its effect where it is accepted (47_session_commands.md
R681). -/
theorem exec_cases {i : Instr} {s t : State} (h : exec i s = .next t) :
    (∃ e, rejection i s.engine s.session = some e ∧ t = { s with err := e }) ∨
      (rejection i s.engine s.session = none ∧ t = effectOf i s) := by
  rw [exec_eq_issue, Host.Outcome.next.injEq] at h
  exact h ▸ issue_cases i (effectOf i) s

/-! ## What a session keeps -/

/-- The histories, the reservoir, the format lock and the reported format stay. -/
def SessionDataKept (s t : State) : Prop :=
  t.syn0 = s.syn0 ∧ t.syn1 = s.syn1 ∧ t.res = s.res ∧ t.lock = s.lock ∧ t.header = s.header ∧
    t.sampleRate = s.sampleRate ∧ t.bitrate = s.bitrate ∧ t.srcChannels = s.srcChannels

/-- Only the commands that clear the histories give up a session's data (10_state.md R120). -/
theorem effectOf_sessionDataKept {i : Instr} (s : State) (hi : ¬ ClearsSyn i) :
    SessionDataKept s (effectOf i s) := by
  cases i with
  | pull =>
    by_cases h : s.session = .exhausted
    · simp [effectOf, SessionDataKept, pullEffect_exhausted h]
    · simp [effectOf, SessionDataKept, pullEffect_streaming h]
  | refillDone =>
    by_cases h : s.pending = .opening
    · simp [effectOf, SessionDataKept, refillEffect_open h]
    · simp [effectOf, SessionDataKept, refillEffect_pull h]
  | refillDoneErr =>
    by_cases h : s.pending = .opening
    · simp [effectOf, SessionDataKept, refillEffect_open_err h]
    · simp [effectOf, SessionDataKept, refillEffect_pull_err h]
  | nop => exact ⟨rfl, rfl, rfl, rfl, rfl, rfl, rfl, rfl⟩
  | irqAck => exact ⟨rfl, rfl, rfl, rfl, rfl, rfl, rfl, rfl⟩
  | reset => exact absurd (.inl rfl) hi
  | openFile => exact absurd (.inr (.inl rfl)) hi
  | close => exact absurd (.inr (.inr rfl)) hi

/-- OPEN leaves the reset values but for the host's settings, the session it will replace, what the spec leaves
unspecified, the model's own fields and the request for the initial fill (10_state.md R120). -/
theorem openEffect_eq (s : State) : openEffect s = { State.reset with
    ctrl := s.ctrl, dbgSel := s.dbgSel, session := s.session, ibuf := s.ibuf, pcmMem := s.pcmMem,
    ibufCap := s.ibufCap, inputs := s.inputs, busData := s.busData, busError := s.busError, epoch := s.epoch,
    refillMax := s.ibufCap, engine := .needData, pending := .opening } := rfl

/-! ## What writes SESSION (47_session_commands.md R651) -/

theorem effectOf_session {i : Instr} (s : State) (hi : i ∈ [Instr.nop, .openFile, .pull, .irqAck]) :
    (effectOf i s).session = s.session := by
  simp only [List.mem_cons, List.not_mem_nil, or_false] at hi
  rcases hi with rfl | rfl | rfl | rfl
  case inr.inr.inl =>
    by_cases h : s.session = .exhausted
    · simp [effectOf, pullEffect_exhausted h]
    · simp [effectOf, pullEffect_streaming h]
  all_goals rfl

/-- The answer to a PULL's refill leaves SESSION (47_session_commands.md R675). -/
theorem refillEffect_pull_session {s : State} (h : s.pending ≠ .opening) (readError : Bool) :
    (refillEffect readError s).session = s.session := by
  cases readError
  · simp [refillEffect_pull h]
  · simp [refillEffect_pull_err h]

/-- What a command writes to SESSION, by the command. -/
def SessionWritten (i : Instr) (s t : State) : Prop :=
  (t.session = .streaming ∧ s.pending = .opening ∧ i = .refillDone) ∨
  (t.session = .uninitialized ∧ s.pending = .opening ∧ i = .refillDoneErr) ∨
  (t.session = .uninitialized ∧ (i = .close ∨ i = .reset))

theorem effectOf_sessionWritten (i : Instr) (s : State) :
    (effectOf i s).session = s.session ∨ SessionWritten i s (effectOf i s) := by
  cases i with
  | reset => exact .inr (.inr (.inr ⟨rfl, .inr rfl⟩))
  | close => exact .inr (.inr (.inr ⟨rfl, .inl rfl⟩))
  | refillDone =>
    by_cases h : s.pending = .opening
    · exact .inr (.inl ⟨by simp [effectOf, refillEffect_open h], h, rfl⟩)
    · exact .inl (refillEffect_pull_session h false)
  | refillDoneErr =>
    by_cases h : s.pending = .opening
    · exact .inr (.inr (.inl ⟨by simp [effectOf, refillEffect_open_err h], h, rfl⟩))
    · exact .inl (refillEffect_pull_session h true)
  | _ => exact .inl (effectOf_session s (by decide))

theorem exec_sessionWritten {i : Instr} {s t : State} (h : exec i s = .next t) :
    t.session = s.session ∨ SessionWritten i s t := by
  obtain ⟨e, -, rfl⟩ | ⟨-, rfl⟩ := exec_cases h
  · exact .inl rfl
  · exact effectOf_sessionWritten i s

/-- An engine step writes SESSION where it ends the stream (47_session_commands.md R674). -/
theorem engineStep_session (s : State) : (engineStep s).session = s.session ∨
    (decoding s ∧ (engineStep s).session = .exhausted ∧ (engineStep s).eos = true) := by
  by_cases h : decoding s
  · rw [engineStep_decoding h]
    rcases iteration_cases (tick s) with ⟨-, e⟩ | ⟨-, e⟩ | ⟨-, e⟩ | ⟨H, c, -, -, e⟩ | ⟨H, f, -, -, e⟩ <;> rw [e]
    case inr.inl => exact .inr ⟨h, rfl, rfl⟩
    all_goals exact .inl rfl
  · exact .inl (by rw [engineStep_waiting h])

/-- Of what is neither a command nor a reset only the end of the stream writes SESSION. -/
theorem PlainMove.session {b t : State} (h : PlainMove b t) :
    t.session = b.session ∨ (decoding b ∧ t.session = .exhausted ∧ t.eos = true) := by
  rcases h with rfl | rfl | ⟨v, rfl⟩ | rfl | ⟨v, rfl⟩ | ⟨v, rfl⟩
  case inr.inl => exact engineStep_session b
  case inr.inr.inl =>
    refine .inl ?_
    rcases writeInData_cases v b with ⟨-, e⟩ | ⟨-, -, e⟩ | ⟨-, -, e⟩ <;> rw [e] <;> rfl
  all_goals exact .inl rfl

/-! ## The obligations -/

/-- Settles O18: the acceptance table's rejections. -/
theorem commandsRejected : Obligations.CommandsRejected := fun _ =>
  ⟨fun h _ hi => exec_not_idle hi h, exec_pull_uninitialized, fun h _ hi => exec_not_needData hi h⟩

/-- Settles O19: an accepted NOP completes. -/
theorem nopCompletes : Obligations.NopCompletes :=
  ⟨by decide, fun _ => ⟨exec_idle (by decide), exec_not_idle (by decide)⟩⟩

/-- Settles O20: the values are those of `State.reset`. -/
theorem resetPutsResetValues : Obligations.ResetPutsResetValues := by
  intro s
  have hstatus : statusWord State.reset = 0 := by decide
  exact ⟨⟨resetBlock s, rfl, hstatus, by simp⟩, rfl, rfl⟩

/-- Settles O21: an accepted OPEN gives up the session, clears the counters and asks for the initial fill. -/
theorem openStartsFill : Obligations.OpenStartsFill :=
  ⟨by decide, fun _ => ⟨exec_idle (by decide), exec_not_idle (by decide)⟩⟩

/-- Settles O22: an accepted CLOSE gives up the session and completes. -/
theorem closeEndsSession : Obligations.CloseEndsSession :=
  ⟨by decide, fun _ => ⟨exec_idle (by decide), exec_not_idle (by decide)⟩⟩

/-- Settles O23: the acceptance table's two rejections, and PULL's effect by SESSION. -/
theorem pullStartsOrEnds : Obligations.PullStartsOrEnds := by
  refine ⟨by decide, fun s =>
    ⟨exec_not_idle (by decide), exec_pull_uninitialized, fun h hs => ?ends, fun h hs => ?starts⟩⟩
  case ends =>
    rw [exec_pull_idle h (by simp [hs]), pullEffect_exhausted hs]
    rfl
  case starts =>
    rw [exec_pull_idle h (by simp [hs]), pullEffect_streaming (by simp [hs])]
    rfl

/-- Settles O24: OPEN's request is answered with the staged bytes or with a read error. -/
theorem refillDoneCompletesOpen : Obligations.RefillDoneCompletesOpen := by
  intro s h hp
  rw [exec_refillDone_needData h, exec_refillDoneErr_needData h, refillEffect_open hp, refillEffect_open_err hp]
  exact ⟨rfl, rfl⟩

/-- Settles O25: a PULL's request is answered with the staged bytes or with end of file, and the PULL decodes on. -/
theorem refillDoneResumesPull : Obligations.RefillDoneResumesPull := by
  intro s h hp
  have hopen : s.pending ≠ .opening := by simp [hp]
  rw [exec_refillDone_needData h, exec_refillDoneErr_needData h, refillEffect_pull hopen, refillEffect_pull_err hopen]
  exact ⟨rfl, rfl⟩

/-- Settles O26: the effect of IRQ_ACK is the acceptance itself. -/
theorem irqAckClearsDoneAndErr : Obligations.IrqAckClearsDoneAndErr := ⟨by decide, fun _ => exec_accepted rfl⟩

/-- Settles O27: a rejection writes ERR alone, and each accepted command's effect leaves what the frame names. -/
theorem commandFrame : Obligations.CommandFrame := by
  intro i s t h hr
  obtain ⟨e, -, rfl⟩ | ⟨-, rfl⟩ := exec_cases h
  · simp
  · obtain ⟨hctrl, hdbg, hibuf, hpcm, hcap, hinputs, hdata, herror, hepoch⟩ := effectOf_keeps s hr
    refine ⟨fun a => by rw [hibuf], hpcm, hctrl, hdbg, hcap, hinputs, hdata, herror, hepoch, fun ho => ?counters,
      fun ho hc => effectOf_sessionDataKept s (by simp [ClearsSyn, hr, ho, hc])⟩
    obtain ⟨hframes, hresyncs, hdropped, hcause⟩ := effectOf_countersKept s ho hr
    exact ⟨hframes, hresyncs, hdropped, hcause, effectOf_isSnap s ho hr⟩

/-- Settles O43: of the moves of a step only the end of the stream, the answers to an OPEN's fill, CLOSE, RESET and a
reset write SESSION, and a decoding PULL belongs to a streaming session. -/
theorem sessionChangesOnly : Obligations.SessionChangesOnly := by
  intro s t hinv h hne
  obtain ⟨b, hb, ⟨-, -, hp⟩ | ⟨-, i, hi, hx⟩ | ⟨-, hr, rfl⟩⟩ := step_moves h
  all_goals have hsession : b.session = s.session := by rw [hb]
  · obtain ⟨hdec, hended, heos⟩ := hp.session.resolve_left (hsession ▸ hne)
    rw [hb] at hdec
    exact .inr (.inr (.inl ⟨hended, hinv.streams hdec.2, hdec, heos⟩))
  · have hpending : b.pending = s.pending := by rw [hb]
    rw [hi, ← hpending]
    rcases (exec_sessionWritten hx).resolve_left (hsession ▸ hne) with
      ⟨hs, hp, rfl⟩ | ⟨hs, hp, rfl⟩ | ⟨hs, rfl | rfl⟩
    · exact .inl ⟨hs, hp, rfl⟩
    · exact .inr (.inl ⟨hs, hp, rfl⟩)
    · exact .inr (.inr (.inr ⟨hs, .inl rfl⟩))
    · exact .inr (.inr (.inr ⟨hs, .inr (.inl rfl)⟩))
  · exact .inr (.inr (.inr ⟨rfl, .inr (.inr hr)⟩))

/-- Settles O47: OPEN writes all that decoding depends on but what the two states agree on, and makes no byte input and
no PCM entry valid. -/
theorem openForgetsOldSession : Obligations.OpenForgetsOldSession := by
  intro s t hs ht hctrl hdbg hcap hinputs herror hepoch
  refine ⟨openEffect s, openEffect t, exec_idle (by decide) hs, exec_idle (by decide) ht, ?rest, ?session, ?input, ?pcm⟩
  case rest => rw [openEffect_eq s, openEffect_eq t, hctrl, hdbg, hcap, hinputs, herror, hepoch]
  case session => exact fun h => absurd rfl h
  case input => exact fun a ha => absurd ha (Nat.not_lt_zero a)
  case pcm => exact fun h => absurd h Bool.false_ne_true

end Sys2Proof.Machine
end

section
/-! PROOF. How an iteration of a PULL ends it, what it delivers, and that the PULL comes to an end (O31, O34, O37,
O38). -/

namespace Sys2Proof.Machine

/-! ## The delivered state (47_session_commands.md R673) -/

theorem pcmChannelCount_eq (nch : Nat) (force : Bool) :
    pcmChannelCount nch force = if nch = 1 ∧ force = false then 1 else 2 := by
  cases force <;> simp [pcmChannelCount]

theorem deliver_lock_eq (H : Word) (f : FrameIn) (r : List Byte) (s : State) : (deliver H f r s).lock =
    if s.lock = none then some ⟨(headerOfWord H).fs, (headerOfWord H).nch⟩ else s.lock := by
  rw [deliver_lock]
  cases s.lock <;> rfl

/-- The whole state after a delivery, by its channel count and its lock. -/
theorem deliver_eq {H : Word} {f : FrameIn} {s : State} {chans : Nat} {lock : Option Lock} (r : List Byte)
    (hchans : pcmChannelCount (headerOfWord H).nch (forceStereo s) = chans) (hlock : (deliver H f r s).lock = lock) :
    deliver H f r s = { s with
      syn0 := (fxFrame f s.syn0 s.syn1).1.syn, syn1 := (fxFrame f s.syn0 s.syn1).2.syn,
      pcmChannels := BitVec.ofNat 32 chans,
      pcmMem := interleave (headerOfWord H).nch chans (fxFrame f s.syn0 s.syn1) s.pcmMem,
      pcmLength := 1152, pcmValid := true, header := H, sampleRate := BitVec.ofNat 32 (headerOfWord H).fs,
      bitrate := BitVec.ofNat 32 (headerOfWord H).kbps, srcChannels := BitVec.ofNat 32 (headerOfWord H).nch,
      lock := lock, frames := s.frames + 1, isSnap := snapshotOf f, res := trimRes r,
      pos := s.pos + (headerOfWord H).frameLength,
      engine := .idle, pending := .none, done := true, refillMax := 0, refillCount := 0 } := by
  subst hchans hlock
  simp only [deliver, complete]

/-! ## How far an iteration gets -/

/-- An iteration of a decoding PULL leaves BUSY, or decodes on with the cursor moved over available bytes
(41_frame_header.md R354, R361). -/
theorem iteration_progress {s : State} (hdec : decoding s) (hpos : s.pos ≤ s.avail) :
    (iteration s).engine ≠ .busy ∨
      (decoding (iteration s) ∧ s.pos < (iteration s).pos ∧ (iteration s).pos ≤ (iteration s).avail ∧
        (iteration s).avail = s.avail) := by
  rcases iteration_cases s with ⟨-, e⟩ | ⟨-, e⟩ | ⟨hs, e⟩ | ⟨H, c, hs, -, e⟩ | ⟨H, f, -, -, e⟩ <;> rw [e]
  · exact .inl (by simp)
  · exact .inl (by simp)
  · have hfour := ensure_iff.1 (headerStage_skip hs)
    refine .inr ⟨hdec, Nat.lt_succ_self _, ?_, rfl⟩
    simp only [syncSkip_pos, syncSkip_avail]
    omega
  · obtain ⟨-, -, -, hv, hf, -, hlen⟩ := headerStage_frame hs
    have hlen := ensure_iff.1 hlen
    have hbounds := frameLength_bounds hv hf
    refine .inr ⟨hdec, ?_, ?_, rfl⟩
    all_goals
      simp only [dropFrame_pos, dropFrame_avail]
      omega
  · exact .inl (by simp)

theorem Engine.eq_idle {e : Engine} (hb : e ≠ .busy) (hn : e ≠ .needData) : e = .idle := by
  cases e with
  | idle => rfl
  | busy => exact absurd rfl hb
  | needData => exact absurd rfl hn

theorem runs_succ {n : Nat} {s t u : State} (h : step s = .next t) (hr : runs n t u) : runs (n + 1) s u :=
  (run_next n h).trans hr

/-- A PULL that decodes with no host access in between leaves BUSY, by induction on the unconsumed bytes
(47_session_commands.md R672). -/
theorem decoding_leaves_busy {s : State} (hdec : decoding s) (hpos : s.pos ≤ s.avail) (hin : s.inputs = []) :
    ∃ n t, n ≤ s.avail - s.pos + 1 ∧ runs n s t ∧ t.engine ≠ .busy ∧ (s.eof = true → t.engine = .idle) := by
  have hstep : step s = .next (iteration (tick s)) := by rw [step_nil hin, engineStep_decoding hdec]
  rcases iteration_progress (s := tick s) hdec hpos with hleft | ⟨hdec', hmoved, hpos', havail⟩
  · exact ⟨1, _, by omega, runs_succ hstep rfl, hleft, fun he =>
      Engine.eq_idle hleft (iteration_eof_engine (s := tick s) hdec.1 he)⟩
  · obtain ⟨-, -, -, heof, -, hinputs, -⟩ := iteration_keeps (tick s)
    have hless : (iteration (tick s)).avail - (iteration (tick s)).pos < s.avail - s.pos := by
      simp only [tick_pos, tick_avail] at hmoved havail
      omega
    obtain ⟨n, t, hn, hruns, hleft, hidle⟩ := decoding_leaves_busy hdec' hpos' (hinputs.trans hin)
    exact ⟨n + 1, t, by omega, runs_succ hstep hruns, hleft, fun he => hidle (heof.trans he)⟩
termination_by s.avail - s.pos

/-! ## The obligations -/

/-- Settles O31: both outcomes end the stream. -/
theorem endOfStreamStep : Obligations.EndOfStreamStep := by
  intro s hdec hs
  rw [engineStep_decoding hdec, iteration_endOfStream (s := tick s) hs]
  rfl

/-- Settles O34: the iteration delivers the frame, with R606's channel count and R358's lock. -/
theorem frameDeliveryStep : Obligations.FrameDeliveryStep := by
  intro s H f h whole out chans hdec hs hd
  have hchans : pcmChannelCount h.nch (forceStereo (tick s)) = chans := pcmChannelCount_eq _ _
  rw [engineStep_decoding hdec, iteration_deliver (s := tick s) hs hd, deliver_eq _ hchans (deliver_lock_eq _ _ _ _)]
  rfl

/-- Settles O37: of an iteration's outcomes the delivery and the end of the stream end the PULL, and the others write
none of these fields. -/
theorem oneFramePerPull : Obligations.OneFramePerPull := by
  intro s hdec
  rw [engineStep_decoding hdec]
  rcases iteration_cases (tick s) with ⟨-, e⟩ | ⟨-, e⟩ | ⟨-, e⟩ | ⟨H, c, -, -, e⟩ | ⟨H, f, -, -, e⟩ <;> rw [e]
  case inr.inl => exact ⟨fun _ => .inr ⟨rfl, rfl, rfl, rfl, rfl, rfl⟩, fun hne => absurd rfl hne⟩
  case inr.inr.inr.inr => exact ⟨fun _ => .inl ⟨rfl, rfl, rfl, rfl, rfl, rfl, rfl⟩, fun hne => absurd rfl hne⟩
  all_goals exact ⟨by simp [hdec.1], fun _ => ⟨rfl, rfl, rfl, rfl, rfl, rfl, rfl, rfl⟩⟩

/-- Settles O38: every iteration that does not leave BUSY consumes a byte. -/
theorem pullTerminates : Obligations.PullTerminates := fun _ => decoding_leaves_busy

end Sys2Proof.Machine
end

section
/-! PROOF. The interrupt line in the bits of CTRL and STATUS (O17). -/

namespace Sys2Proof.Machine

/-- Of the codes of the ENGINE field only NEED_DATA's is 2 (10_state.md R63). -/
theorem Engine.code_eq_two_iff (e : Engine) : e.code = 2#2 ↔ e = .needData := by
  cases e <;> decide

/-- `STATUS.DONE` is bit 7 (10_state.md R63). -/
theorem statusWord_done (s : State) : (statusWord s).getLsbD 7 = s.done :=
  statusWord_getLsbD s (by decide)

/-- Settles O17: DONE and ENGINE are read in their fields of STATUS, and reset clears IRQ_EN. -/
theorem interruptLine : Obligations.InterruptLine := by
  refine ⟨fun s => ?fields, rfl⟩
  rw [statusWord_done, statusWord_engine, decide_eq_decide.mpr s.engine.code_eq_two_iff]
  rfl

end Sys2Proof.Machine
end
